-- ==== Sys2Proof/Word.lean ====
section
/-! DEFINITION. The part's plainest data: bytes, codes, slots, channels, and a group of four like things. -/

namespace Sys2Proof

/-- A byte of a frame, of a record or of text. -/
abbrev Byte := BitVec 8

/-- A pod's digitised value of one channel at one instant, a signed 16-bit number (00_scope.md). -/
abbrev Code := BitVec 16

/-- A pod slot, numbered 0..3 (R1). -/
abbrev Slot := Fin 4

/-- A channel number, slot * 4 + index (00_scope.md). -/
abbrev Chan := Fin 16

/-- Text as the part keeps it: one byte for each character. -/
abbrev Text := List Byte

/-- Four like things, one for each slot, each index within a pod, or each place of a small table. -/
structure Quad (α : Type) where
  q0 : α
  q1 : α
  q2 : α
  q3 : α
deriving DecidableEq, Repr

namespace Quad

/-- The member at an index. -/
def get {α : Type} (q : Quad α) (i : Fin 4) : α :=
  match i with
  | ⟨0, _⟩ => q.q0
  | ⟨1, _⟩ => q.q1
  | ⟨2, _⟩ => q.q2
  | ⟨3, _⟩ => q.q3

/-- The group with the member at an index replaced. -/
def set {α : Type} (q : Quad α) (i : Fin 4) (a : α) : Quad α :=
  match i with
  | ⟨0, _⟩ => { q with q0 := a }
  | ⟨1, _⟩ => { q with q1 := a }
  | ⟨2, _⟩ => { q with q2 := a }
  | ⟨3, _⟩ => { q with q3 := a }

/-- The same member four times. -/
def fill {α : Type} (a : α) : Quad α := ⟨a, a, a, a⟩

/-- A function applied to each member. -/
def map {α β : Type} (f : α → β) (q : Quad α) : Quad β := ⟨f q.q0, f q.q1, f q.q2, f q.q3⟩

/-- Two groups joined member by member. -/
def zip {α β γ : Type} (f : α → β → γ) (p : Quad α) (q : Quad β) : Quad γ :=
  ⟨f p.q0 q.q0, f p.q1 q.q1, f p.q2 q.q2, f p.q3 q.q3⟩

/-- The members in index order. -/
def toList {α : Type} (q : Quad α) : List α := [q.q0, q.q1, q.q2, q.q3]

end Quad

/-- The indexes 0..3 in order. -/
def indexes : List (Fin 4) := [0, 1, 2, 3]

/-- The slot of a channel. -/
def Chan.slot (c : Chan) : Slot := ⟨c.val / 4, by omega⟩

/-- The index of a channel within its pod. -/
def Chan.index (c : Chan) : Fin 4 := ⟨c.val % 4, by omega⟩

/-- The channel at an index of a slot. -/
def channel (s : Slot) (i : Fin 4) : Chan := ⟨s.val * 4 + i.val, by omega⟩

end Sys2Proof
end

