-- ==== Sys2Proof/Syntax.lean ====
section
/-! DEFINITION. The commands of the part: one constructor of `Instr` for each row of spec/opcode_table.json, with the
row's operands. A row is one step of the part. Rows that come from outside carry what they bring in, and the rows of
the crew's commands carry the command's parameters as data, because the manual gives no byte layout for them (log 22). -/

namespace Sys2Proof

/-- The kind of a channel, declared by its pod (00_scope.md). -/
inductive Kind where
  | none
  | voltage
  | current
deriving DecidableEq, Repr

/-- One instant's four channel codes from one pod. -/
abbrev SampleSet := Quad Code

/-- A SAMPLE frame as the pod sent it (R12, R204). -/
structure SampleFrame where
  slot : Slot
  seq : Byte
  first : BitVec 32
  sets : List SampleSet
deriving DecidableEq, Repr

/-- The frames that pass through the control queue (R9, R204). A slot byte above 3 names no slot. -/
inductive ControlFrame where
  | attach (serial : BitVec 48) (kinds : Quad Kind)
  | status (slot : Byte) (body : List Byte)
  | podReply (slot : Byte) (tag : BitVec 16) (body : List Byte)
  | podNotice (slot : Byte) (code : Fin 8) (setting : Bool)
deriving DecidableEq, Repr

/-- A frame as the line delivers it: whether every symbol was a data symbol, and its bytes (R181). -/
structure LineFrame where
  symbolsOk : Bool
  bytes : List Byte
deriving DecidableEq, Repr

/-- The level of the printer's paper line (08). -/
inductive Paper where
  | present
  | absent
deriving DecidableEq, Repr

/-- The level of the printer's head line (08). -/
inductive Head where
  | ok
  | hot
deriving DecidableEq, Repr

/-- What every command carries in front of its own parameters: the crew's tag, and whether the parameters have the
length the command requires (R195). -/
structure Envelope where
  tag : BitVec 16
  lengthOk : Bool
deriving DecidableEq, Repr

/-- The envelope of a command whose effect rests on the printer's lines, with the levels that the paper and head lines read
as the command is taken (R151, R164, R165, R201, log 9). -/
structure PrinterEnvelope extends Envelope where
  paper : Paper
  head : Head
deriving DecidableEq, Repr

/-- The head of a TABLE_LOAD (R198). `tableKnown` is no when the frame's table id is none of the eight. -/
structure LoadHead where
  tag : BitVec 16
  lengthOk : Bool
  tableKnown : Bool
  first : Nat
  count : Nat
deriving DecidableEq, Repr

/-- The SURVEY entry (R199). -/
structure SurveyEntry where
  fNom : Nat
  h : Nat
  autoSend : Bool
deriving DecidableEq, Repr

/-- A THRESHOLD entry (R40). -/
structure ThresholdEntry where
  watch : Bool
  nc : Nat
  ts : Nat
  ti : Nat
  tw : Nat
  hy : Nat
deriving DecidableEq, Repr

/-- A CAPTURE entry (R61). -/
structure CaptureEntry where
  enabled : Bool
  pre : Nat
  post : Nat
deriving DecidableEq, Repr

/-- An entry of the HARMONIC table as a load carries it (R81): for indexes 0..15 `flag` is the watch flag; for index
16 `m` is the interval length and `flag` the exclude-episodes flag. -/
structure HarmonicEntry where
  m : Nat
  flag : Bool
deriving DecidableEq, Repr

/-- A template line (R145). `unknown` is a line whose kind is none of the seven. -/
inductive TemplateLine where
  | text (literal : Text)
  | siteHeader
  | episodeList (minDepth maxRows : Nat)
  | harmonicTable (chan : Nat)
  | noteList (filter : BitVec 32)
  | rule
  | feed (n : Nat)
  | unknown (kind : Nat)
deriving DecidableEq, Repr

/-- The PRINT_TIMING entry (R147). -/
structure TimingEntry where
  lt : Nat
  strobeStart : Nat
  strobeEnd : Nat
  step : Nat
deriving DecidableEq, Repr

/-- The eight tables (R198). -/
inductive TableId where
  | survey
  | reference
  | threshold
  | capture
  | bin
  | harmonic
  | template
  | printTiming
deriving DecidableEq, Repr

/-- An entry as TABLE_READ returns it (R198). `staged` tells whether it is staged or in force (R41, R82). -/
inductive TableEntry where
  | survey (e : SurveyEntry)
  | reference (e : Option Nat)
  | threshold (e : ThresholdEntry) (staged : Bool)
  | capture (e : CaptureEntry)
  | bin (e : Option Nat) (staged : Bool)
  | harmonic (e : HarmonicEntry) (staged : Bool)
  | template (lines : List TemplateLine)
  | printTiming (e : TimingEntry)
deriving DecidableEq, Repr

/-- The sections of STATUS (R201). -/
inductive StatusSection where
  | part
  | sessions
  | tracker
  | detector
  | capture
  | harmonic
  | store
  | sites
  | print
  | notices
  | dport
deriving DecidableEq, Repr

/-- The kinds of record. -/
inductive RecordKind where
  | episode
  | capture
  | harmonic
deriving DecidableEq, Repr

/-- What a park keeps (R122). -/
inductive Retention where
  | all
  | half
  | quarter
deriving DecidableEq, Repr

/-- The priority mode of the notice unit (R171). -/
inductive NoticeMode where
  | fixed
  | rotating
deriving DecidableEq, Repr

/-- The rows of the table, in its order. An `Option` operand that is `none` stands for a value outside the command's
own list of values, but for NOTICE_END, where it stands for no source named, and for the filters of the lists, where
it stands for ANY. Where a rule gives an operand a range or a list and no test, the operand carries those values alone
(log 61). -/
inductive Instr where
  | powerOn
  | instantAdvance
  | surveyClockTick
  | debounceTimerExpiry (slot : Slot)
  | quietTimerExpiry (slot : Slot)
  | sample (f : SampleFrame)
  | controlFrameReceive (f : ControlFrame)
  | uFrameReject (f : LineFrame)
  | attach
  | statusFrame
  | podNotice
  | podReply
  | laneInstant (slot : Slot)
  | capturePreRead (slot : Slot)
  | heldGapRunPlace (slot : Slot)
  | episodeWriteStart
  | harmonicWriteStart
  | storeBurstEnd (paper : Paper)
  | readoutFramePlace
  | composerRow (paper : Paper)
  | printPeriodEnd (paper : Paper)
  | strobeStart (head : Head)
  | strobeEnd
  | motorStep
  | headOk
  | paperPresent
  | offerRetry
  | replyPlace
  | deferredReplyPlace
  | dFrameEnd
  | uFrameEnd
  | command (c : Instr)
  | dFrameReject (f : LineFrame)
  | unknownCommand (tag : BitVec 16) (code : Byte)
  | forwardedCommand (tag : BitVec 16) (target : Byte) (code : Byte) (body : List Byte)
  | tableLoadSurvey (h : LoadHead) (entries : List SurveyEntry)
  | tableLoadReference (h : LoadHead) (entries : List (Option Nat))
  | tableLoadThreshold (h : LoadHead) (entries : List ThresholdEntry)
  | tableLoadCapture (h : LoadHead) (entries : List CaptureEntry)
  | tableLoadBin (h : LoadHead) (entries : List (Option Nat))
  | tableLoadHarmonic (h : LoadHead) (entries : List HarmonicEntry)
  | tableLoadTemplate (h : LoadHead) (entries : List (List TemplateLine))
  | tableLoadPrintTiming (h : LoadHead) (entries : List TimingEntry)
  | tableRead (e : Envelope) (table : Option TableId) (first count : Nat)
  | status (e : PrinterEnvelope) (sel : Option StatusSection)
  | clockSet (e : Envelope) (seconds : BitVec 32)
  | softReset (e : Envelope)
  | hold (e : Envelope)
  | release (e : Envelope)
  | podDetach (e : Envelope) (slot : Nat)
  | slotPassthrough (e : Envelope) (slot : Nat) (on : Bool)
  | captureForce (e : Envelope) (slot n : Nat)
  | siteOpen (e : Envelope) (site : Nat) (name : Text)
  | siteClose (e : Envelope)
  | siteForget (e : Envelope) (site : Nat)
  | siteList (e : Envelope)
  | noteAdd (e : Envelope) (site : Nat) (tags : BitVec 32) (text : Text) (links : List Nat)
  | noteLink (e : Envelope) (note record : Nat)
  | noteUnlink (e : Envelope) (note record : Nat)
  | noteDelete (e : Envelope) (note : Nat)
  | noteRead (e : Envelope) (note : Nat)
  | noteList (e : Envelope) (site : Option Nat) (filter : BitVec 32) (start : Nat)
  | recordList (e : Envelope) (site : Option Nat) (kind : Option RecordKind) (start : Nat)
  | recordRead (e : Envelope) (record offset : Nat)
  | recordErase (e : Envelope) (record : Nat)
  | storeWipe (e : Envelope)
  | storeConfig (e : Envelope) (low : Nat) (qp qs : BitVec 4)
  | park (e : Envelope) (retention : Option Retention)
  | resume (e : Envelope)
  | printSubmit (e : Envelope) (template site : Nat)
  | printCancel (e : PrinterEnvelope) (job : Nat)
  | printList (e : PrinterEnvelope)
  | paperFeed (e : PrinterEnvelope) (n : Nat)
  | noticeAck (e : Envelope)
  | noticePoll (e : Envelope)
  | noticeEnd (e : Envelope) (source : Option Nat)
  | noticeMask (e : Envelope) (mask : BitVec 12)
  | noticeMode (e : Envelope) (mode : Option NoticeMode)
  | noticePolling (e : Envelope) (on : Bool)
deriving DecidableEq, Repr

end Sys2Proof
end

