-- ==== Sys2Proof/Config.lean ====
section
/-! DEFINITION. The values the manual leaves open. They have no body: nothing can be proved of what they are. -/

namespace Sys2Proof.Config

/-- Dot line `k` of the 12 dots across of the glyph of a character (R153). The manual gives no glyph but the space's,
so a glyph is a free value (log 10). DESIGN CHOICE, safe. -/
opaque glyphLine : Byte → Nat → BitVec 12

/-- How many of a run of entries fit one REPLY of at most 1,536 bytes (R198). It rests on the bytes each entry takes
in the reply, which no layout of the manual gives (log 11). DESIGN CHOICE, safe. -/
opaque entriesThatFit : List TableEntry → Nat

/-- The instant of a boundary that has left the tracker's list, for its number and the instant counter at the resync
that delivers its close (R18, R46). No state holds it (log 14). DESIGN CHOICE, safe. -/
opaque departedInstant : Nat → Nat → Nat

/-- The extreme permille of an RMS code for a nominal code of 0 (R42, R46): the close that takes an entry with watch no
and Nc 0 is counted in the open event, and the manual's floor(r * 1000 / Nc) then has no value (log 15).
DESIGN CHOICE, safe. -/
opaque permilleOverZero : Nat → Nat

end Sys2Proof.Config
end

