-- ==== Sys2Proof/Machine/State.lean ====
section
/-! DEFINITION. Everything the manual gives the part to hold, as plain data, block by block, and the part right after
power-on. -/

namespace Sys2Proof.Machine

open Sys2Proof

/-- The part has no faults: nothing in the manual stops it. No constructor is used by a meaning. -/
inductive Fault where
  /-- Raised by nothing. Safe. -/
  | none
deriving DecidableEq, Repr

/-- Refusals. Every row has its meaning, so no arm raises one. -/
inductive Refusal where
  /-- Raised by an arm of `exec` whose row has no meaning yet. Safe: the model stops. -/
  | notModelled (mnemonic : String)
deriving DecidableEq, Repr

/-! ### Pod sessions and sample lanes (01) -/

/-- Session state of a slot (R1). -/
inductive SlotPhase where
  | empty
  | debounce
  | active
  | ending
deriving DecidableEq, Repr

/-- Why the current ENDING began (R1). -/
inductive EndReason where
  | quiet
  | detached
deriving DecidableEq, Repr

/-- A SAMPLE frame in an ingress queue (R12): its extended first instant and count as accepted, the sets the lane has
not processed with the instant of the first of them, and whether the lane has taken the frame (R16). -/
structure IngressFrame where
  count : Nat
  next : Nat
  sets : List SampleSet
  taken : Bool
deriving DecidableEq, Repr

/-- A sample lane (R15): the next instant it will process, the last boundary number it closed at, the instant after
that boundary, the open half-cycle's sums and marks. -/
structure Lane where
  position : Nat
  lastBoundary : Nat
  halfStart : Nat
  sumSquares : Quad Nat
  dataCount : Quad Nat
  hTotal : Nat
  gapMark : Bool
  clipMark : Bool
deriving DecidableEq, Repr

/-- An entry of the pod slot table (R1) with the slot's ingress queue, its counter and its lane (R12, R15). The
clipped flag is bit 0 of the pending set (R10, log 6). Log 4. -/
structure PodSlot where
  phase : SlotPhase
  serial : BitVec 48
  kinds : Quad Kind
  debounceCount : Nat
  debounceTimer : Option Nat
  quietTimer : Option Nat
  lastSeq : Option Byte
  passthrough : Bool
  pendingSet : BitVec 8
  endReason : Option EndReason
  ingress : List IngressFrame
  ingressDrops : Nat
  lane : Option Lane
deriving DecidableEq, Repr

/-- Outcome of a session event (R1). -/
inductive SessionOutcome where
  | attached
  | attachFailed
  | noSlot
  | ended (reason : Option EndReason)
deriving DecidableEq, Repr

/-- The session event record, once it holds an outcome (R1). -/
structure SessionEvent where
  slot : Option Slot
  serial : BitVec 48
  outcome : SessionOutcome
deriving DecidableEq, Repr

/-- Result carried by a GRANT (R204). -/
inductive GrantResult where
  | ok
  | noSlot
  | busy
deriving DecidableEq, Repr

/-- The frames the part sends upstream (R11, R192, R204). A POD_COMMAND carries tag and body unchanged. -/
inductive UpFrame where
  | grant (serial : BitVec 48) (result : GrantResult) (slot : Option Slot) (instant fNom : Nat)
  | detach (slot : Slot) (serial : BitVec 48)
  | podCommand (slot : Slot) (tag : BitVec 16) (body : List Byte)
  | podAck (slot : Slot) (code : Nat)
  | podEnd (slot : Slot) (code : Nat)
deriving DecidableEq, Repr

/-- The session unit with the ingress queues, the lanes and the U-port transmitter (01, R192). -/
structure SessionUnit where
  slots : Quad PodSlot
  event : Option SessionEvent
  control : List ControlFrame
  up : List UpFrame
  upInFlight : Option UpFrame
  stray : Nat
  controlDrops : Nat
  podReplyDrops : Nat
  upDrops : Nat
  laneResyncs : Nat
deriving DecidableEq, Repr

/-! ### The cycle tracker (02) -/

/-- Mode of the tracker (R21). -/
inductive TrackerMode where
  | free
  | seeking
  | locked
deriving DecidableEq, Repr

/-- Direction of a boundary. -/
inductive Direction where
  | rising
  | falling
deriving DecidableEq, Repr

/-- Last side of the hysteresis band the reference was seen on (R21). -/
inductive Side where
  | high
  | low
  | unknown
deriving DecidableEq, Repr

/-- Reason of a reference change record (R34). -/
inductive ChangeReason where
  | acquired
  | lost
  | weak
  | stalled
  | reload
  | unlocked
deriving DecidableEq, Repr

/-- A boundary list entry (R23). A RISING entry carries the cycle length and the phase step of R29. -/
structure Boundary where
  number : Nat
  instant : Nat
  direction : Direction
  locked : Bool
  handovers : Nat
  cycle : Option (Nat × Nat)
deriving DecidableEq, Repr

/-- The reference change record (R34). -/
structure ReferenceChange where
  reason : ChangeReason
  previous : Option Chan
  next : Option Chan
  decision : Option Nat
  handovers : Nat
deriving DecidableEq, Repr

/-- The cycle tracker with the REFERENCE table (R21, R30). -/
structure Tracker where
  mode : TrackerMode
  reference : Option Chan
  decision : Option Nat
  position : Nat
  side : Side
  forcedRun : Nat
  crossingCloses : Nat
  lastDirection : Direction
  newest : Option (Nat × Nat)
  nextNumber : Nat
  list : List Boundary
  lPrev : Nat
  handoverCount : Nat
  change : Option ReferenceChange
  chatter : Nat
  forcedCloses : Nat
  table : Quad (Option Nat)
deriving DecidableEq, Repr

/-! ### Half-cycle RMS and episodes (03) -/

/-- State of a channel's event machine (R37). -/
inductive EventState where
  | normal
  | dip
  | interrupted
  | swell
deriving DecidableEq, Repr

/-- Kind of a channel event (R44). -/
inductive EventKind where
  | dip
  | swell
  | interruption
deriving DecidableEq, Repr

/-- Flags of a channel event, in the order of R205. -/
structure EventFlags where
  gapped : Bool
  clipped : Bool
  podLost : Bool
  cut : Bool
  unwatched : Bool
  rethreshold : Bool
  continuation : Bool
deriving DecidableEq, Repr

/-- A channel event entry (R44). -/
structure EventEntry where
  chan : Chan
  kind : EventKind
  start : Nat
  stop : Nat
  halfCycles : Nat
  extreme : Nat
  permille : Nat
  flags : EventFlags
deriving DecidableEq, Repr

/-- What the RMS detector keeps for a channel (R37). -/
structure ChannelState where
  held : Option Nat
  inForce : ThresholdEntry
  staged : Option ThresholdEntry
  state : EventState
  event : Option EventEntry
  listed : Bool
  pendingUnwatched : Bool
deriving DecidableEq, Repr

/-- Flags of an episode, in the order of R205. -/
structure EpisodeFlags where
  continues : Bool
  continuation : Bool
  cut : Bool
  noCapture : Bool
deriving DecidableEq, Repr

/-- The open episode (R49). An element of the event list is an entry and whether its event is still open.
`openChannels` are the channels whose open events belong to the episode, in the order they opened; their number is
the open count. -/
structure Episode where
  site : Nat
  number : Nat
  firstBoundary : Nat
  seconds : Nat
  events : List (EventEntry × Bool)
  dropped : Nat
  captureIds : List Nat
  openChannels : List Chan
  flags : EpisodeFlags
deriving DecidableEq, Repr

/-- A built EPISODE record (R53), without its record id. -/
structure EpisodeRecord where
  site : Nat
  number : Nat
  start : Nat
  stop : Nat
  seconds : Nat
  worst : Chan
  worstPermille : Nat
  events : List EventEntry
  dropped : Nat
  captureIds : List Nat
  flags : EpisodeFlags
deriving DecidableEq, Repr

/-- An admitted record being written (R107, R108): the claimed pages in claim order, the bursts made, and the id once
the burst of the first block has taken it. -/
structure Admitted where
  pages : List Nat
  burstsMade : Nat
  id : Option Nat
deriving DecidableEq, Repr

/-- The episode unit (R49, R54, R55). -/
structure EpisodeUnit where
  current : Option Episode
  outbox : List EpisodeRecord
  writer : Option Admitted
  lost : Nat
  skips : Nat
deriving DecidableEq, Repr

/-! ### Waveform capture (04) -/

/-- Phase of a capture (R63). -/
inductive CapturePhase where
  | idle
  | pre
  | during
  | trend
  | post
  | closing
deriving DecidableEq, Repr

/-- Kind of a section (R64, R206). -/
inductive SectionKind where
  | waveform
  | trend
  | post
deriving DecidableEq, Repr

/-- Flags of a CAPTURE record, in the order of R206. -/
structure CaptureFlags where
  lean : Bool
  joined : Bool
  skipped : Bool
  truncated : Bool
  podLost : Bool
  manual : Bool
  cut : Bool
deriving DecidableEq, Repr

/-- How many instants or entries were counted as pre, during, post and trend (R78). -/
structure Counts where
  pre : Nat
  during : Nat
  post : Nat
  trend : Nat
deriving DecidableEq, Repr

/-- A trend entry (R68). -/
structure TrendEntry where
  number : Nat
  length : Nat
  gap : Bool
  clip : Bool
  codes : Quad (Option Nat)
deriving DecidableEq, Repr

/-- What an entry of a capture holds (R64). -/
inductive CaptureItem where
  | set (s : SampleSet)
  | gapRun (n : Nat)
  | trend (t : TrendEntry)
  | header (k : SectionKind)
deriving DecidableEq, Repr

/-- An entry of a capture with what it was counted as. -/
structure StagedItem where
  item : CaptureItem
  counts : Counts
deriving DecidableEq, Repr

/-- A slot's part of the capture unit: its CAPTURE entry (R61), ring (R62), capture slot (R63) and staging buffer
(R64). A ring place holds a set, or `none` for a gap marker. The held gap run is its counts; `runDue` says that it is closed
and lacks room. `waiting` and `behind` are the section headers that wait for room ahead of the held run and behind it. -/
structure CaptureSlot where
  entry : CaptureEntry
  ring : List (Option SampleSet)
  ringWrite : Nat
  phase : CapturePhase
  recordId : Option Nat
  site : Nat
  episodes : List Nat
  kinds : Quad Kind
  first : Option Nat
  halfCycles : Nat
  remaining : Nat
  preUnread : Nat
  readPos : Nat
  counts : Counts
  held : Counts
  runDue : Bool
  headerDue : Option SectionKind
  waiting : List SectionKind
  behind : List SectionKind
  staging : List StagedItem
  flags : CaptureFlags
  preLimit : Option Nat
  episodesClosed : Bool
  pending : Option Nat
deriving DecidableEq, Repr

/-! ### Harmonic analysis (05) -/

/-- The HARMONIC table (R81): the channels watched, in a list of sixteen flags, M and the exclude-episodes flag. -/
structure HarmonicParams where
  watch : List Bool
  m : Nat
  exclude : Bool
deriving DecidableEq, Repr

/-- Which of the engine's intervals a window belongs to (R83). -/
inductive IntervalPlace where
  | current
  | ending
deriving DecidableEq, Repr

/-- A scheduled window (R83). -/
structure Window where
  start : Nat
  stop : Option Nat
  interval : IntervalPlace
  length : Nat
  closes : Nat
  allLocked : Bool
  handovers : Nat
  handoverChanged : Bool
  done : Quad Bool
deriving DecidableEq, Repr

/-- The figures of one bin in an aggregate (R83): sum and maximum of the amplitude, maximum of the ratio. -/
structure BinFigures where
  ampSum : Nat
  ampMax : Nat
  ratioMax : Nat
deriving DecidableEq, Repr

/-- The aggregate of a watched channel (R83). -/
structure Aggregate where
  chan : Chan
  valid : Nat
  void : Nat
  noFund : Nat
  bins : List BinFigures
  thdSum : Nat
  thdMax : Nat
deriving DecidableEq, Repr

/-- Flags of a HARMONIC record, in the order of R205. -/
structure HarmonicFlags where
  cut : Bool
  retabled : Bool
  noFreq : Bool
deriving DecidableEq, Repr

/-- An interval (R83). Its watch set is the channels of its aggregates, in channel order. -/
structure Interval where
  site : Nat
  bins : List Nat
  m : Nat
  exclude : Bool
  startBoundary : Nat
  start : Nat
  windows : Nat
  stop : Nat
  cycles : Nat
  lengthSum : Nat
  flags : HarmonicFlags
  channels : List Aggregate
deriving DecidableEq, Repr

/-- The accumulators of one channel: I and Q for each bin (R88). -/
structure Accumulator where
  chan : Chan
  iq : List (Int × Int)
deriving DecidableEq, Repr

/-- The lane state of the harmonic engine (R88). The lane window is named by its start boundary. -/
structure HarmonicLane where
  window : Option Nat
  closes : Nat
  gapMark : Bool
  episodeMark : Bool
  phaseMark : Bool
  undirected : Bool
  phase : Nat
  step : Nat
  accs : List Accumulator
deriving DecidableEq, Repr

/-- The figures of one bin in a HARMONIC record (R97). -/
structure BinRecord where
  mean : Nat
  max : Nat
  ratioMax : Nat
deriving DecidableEq, Repr

/-- A channel entry of a HARMONIC record (R97). -/
structure ChannelRecord where
  chan : Chan
  noData : Bool
  valid : Nat
  void : Nat
  noFund : Nat
  meanThd : Nat
  maxThd : Nat
  bins : List BinRecord
deriving DecidableEq, Repr

/-- A built HARMONIC record (R97), without its record id. -/
structure HarmonicRecord where
  site : Nat
  number : Nat
  start : Nat
  stop : Nat
  windows : Nat
  freq : Nat
  flags : HarmonicFlags
  bins : List Nat
  channels : List ChannelRecord
deriving DecidableEq, Repr

/-- The harmonic engine (R83). -/
structure HarmonicEngine where
  bins : List (Option Nat)
  params : HarmonicParams
  staged : Option (List (Option Nat) × HarmonicParams)
  schedule : List Window
  current : Option Interval
  ending : Option Interval
  outbox : List HarmonicRecord
  writer : Option Admitted
  late : Nat
  lost : Nat
  lanes : Quad (Option HarmonicLane)
deriving DecidableEq, Repr

/-! ### The record store (06) -/

/-- State of a directory entry (R104). -/
inductive EntryState where
  | writing
  | complete
deriving DecidableEq, Repr

/-- A directory entry (R104). Its chain is the pages of the record in order, which holds its first page, its page
count and the links of the page table (R102, log 7). -/
structure DirEntry where
  id : Nat
  kind : RecordKind
  site : Nat
  state : EntryState
  chain : List Nat
  length : Nat
  start : Nat
  seconds : Nat
  pins : Nat
  holds : Nat
  flags : Byte
deriving DecidableEq, Repr

/-- The secondary requesters, in rotation order (R112). -/
inductive Secondary where
  | episode
  | harmonic
  | composer
  | readout
deriving DecidableEq, Repr

/-- The holder of the port (R112). -/
inductive Holder where
  | none
  | primary
  | secondary (x : Secondary)
deriving DecidableEq, Repr

/-- The burst in progress (R112). A burst of capture entries holds the entries it moves. `stopped` is a burst whose
holder was stopped while it ran (R113). -/
inductive Burst where
  | captureItems (slot : Slot) (items : List StagedItem)
  | captureHeader (slot : Slot)
  | episodeBlock (block : Nat)
  | harmonicBlock (block : Nat)
  | composerRead (id block : Nat)
  | readoutRead
  | stopped
deriving DecidableEq, Repr

/-- State of the readout (R117). -/
inductive ReadoutState where
  | none
  | reading
  | placing
deriving DecidableEq, Repr

/-- The readout (R117). `asking` holds once the OK reply has been placed. -/
structure Readout where
  state : ReadoutState
  asking : Bool
  id : Nat
  next : Nat
  frameOffset : Nat
  buffer : List Byte
  carry : List Byte
deriving DecidableEq, Repr

/-- Park state (R122). -/
inductive ParkState where
  | active
  | parked
deriving DecidableEq, Repr

/-- The record store (06). -/
structure Store where
  mem : List Host.Cell
  free : List Nat
  dir : List DirEntry
  nextId : Nat
  lowMark : Nat
  qp : Nat
  qs : Nat
  holder : Holder
  used : Nat
  lastServed : Secondary
  burst : Option Burst
  lastSlot : Slot
  readout : Readout
  parkState : ParkState
  retention : Option Retention
  reclaimed : Nat
deriving DecidableEq, Repr

/-! ### Sites and notes (07) -/

/-- State of a site (R127): OPEN or CLOSED. -/
inductive SiteState where
  | opened
  | closed
deriving DecidableEq, Repr

/-- A site registry entry (R127). -/
structure SiteEntry where
  id : Nat
  name : Text
  state : SiteState
  opened : Nat
  closed : Option Nat
  records : Nat
  pending : Nat
  notes : Nat
  nextEpisode : Nat
  nextInterval : Nat
deriving DecidableEq, Repr

/-- Status of a link (R134). -/
inductive LinkStatus where
  | live
  | lost
deriving DecidableEq, Repr

/-- A link of a note (R134). -/
structure Link where
  record : Nat
  status : LinkStatus
deriving DecidableEq, Repr

/-- A note (R134). -/
structure Note where
  id : Nat
  site : Nat
  created : Nat
  tags : BitVec 32
  text : Text
  links : List Link
deriving DecidableEq, Repr

/-- The site unit (07). -/
structure SiteUnit where
  registry : List SiteEntry
  notes : List Note
  nextNote : Nat
deriving DecidableEq, Repr

/-! ### Report printing (08) -/

/-- State of a job in the queue (R148). -/
inductive JobState where
  | queued
  | active
  | stalled
deriving DecidableEq, Repr

/-- Cancel of a job (R148). A PENDING cancel holds the tag of its deferred reply (R163). -/
inductive Cancel where
  | none
  | pending (tag : BitVec 16)
  | feeding
deriving DecidableEq, Repr

/-- A print job (R148). -/
structure Job where
  id : Nat
  template : Fin 4
  site : Nat
  state : JobState
  cancel : Cancel
  rows : Nat
deriving DecidableEq, Repr

/-- Final state of a job (R148). -/
inductive FinalState where
  | done
  | cancelled
  | failed
deriving DecidableEq, Repr

/-- Reason of an outcome (R148). -/
inductive EndCause where
  | completed
  | cancelledByCommand
  | timingWithdrawn
  | reset
deriving DecidableEq, Repr

/-- An outcome of the finished list (R148). -/
structure JobOutcome where
  id : Nat
  template : Fin 4
  site : Nat
  final : FinalState
  rows : Nat
  cause : EndCause
deriving DecidableEq, Repr

/-- A band half (R159), with the 32 characters of the row it holds. Its 28 dot lines follow from the row (R153). -/
inductive BandHalf where
  | free
  | filling
  | full (row : Text)
  | sending (row : Text)
deriving DecidableEq, Repr

/-- The two halves. -/
inductive HalfName where
  | a
  | b
deriving DecidableEq, Repr

/-- What the composer is doing (R152). -/
inductive ComposerState where
  | idle
  | composing
  | finished
deriving DecidableEq, Repr

/-- The read the composer is waiting for (R152): a candidate's first block (R155), the first block of a snapshot
record (R156), or the blocks of a HARMONIC record still to read (R157). -/
inductive ComposerRead where
  | none
  | candidate (id : Nat)
  | episodeRow (id : Nat)
  | harmonic (id : Nat) (blocks : List Nat)
deriving DecidableEq, Repr

/-- The composer (R152). -/
structure Composer where
  state : ComposerState
  line : Nat
  begun : Bool
  rows : Nat
  snapshot : List Nat
  lastCandidate : Nat
  harmonic : Option Nat
  notes : List Nat
  noteRow : Nat
  read : ComposerRead
  half : HalfName
deriving DecidableEq, Repr

/-- Mode of the print timing generator (R160). -/
inductive GenMode where
  | held
  | idle
  | band
  | feed
deriving DecidableEq, Repr

/-- What a feed is for (R164, R165). -/
inductive FeedFor where
  | cancel
  | paperFeed
deriving DecidableEq, Repr

/-- A running period (R160, R161): the timing it began with, its tick counter, what it has given, and whether the
line is held for the head. -/
structure Period where
  timing : TimingEntry
  tick : Nat
  strobed : Bool
  released : Bool
  stepped : Bool
  headHold : Bool
deriving DecidableEq, Repr

/-- The print timing generator (R160). `half` is the half being sent in BAND; `feedLeft` counts the feed lines not
yet ended in FEED. -/
structure Generator where
  mode : GenMode
  half : HalfName
  line : Nat
  feedLeft : Nat
  feedFor : FeedFor
  period : Option Period
deriving DecidableEq, Repr

/-! ### Replies and frames downstream (10, 11) -/

/-- Outcome codes, in the order of 00_scope.md. -/
inductive OutcomeCode where
  | ok
  | busy
  | badParam
  | badTable
  | noSite
  | siteOpen
  | notFound
  | full
  | pinned
  | parked
  | noPod
  | unknown
deriving DecidableEq, Repr

/-- An entry of the in-service list (R168): a source, and for source 7 the slot, serial and code acknowledged. -/
structure ServiceEntry where
  source : Fin 12
  cascade : Option (Slot × BitVec 48 × Nat)
deriving DecidableEq, Repr

/-- A slot as STATUS gives it (R1). -/
structure SlotStatus where
  phase : SlotPhase
  serial : BitVec 48
  kinds : Quad Kind
  clipped : Bool
  passthrough : Bool
deriving DecidableEq, Repr

/-- A channel as STATUS gives it (R37). -/
structure ChannelStatus where
  held : Option Nat
  state : EventState
  inForce : ThresholdEntry
  staged : Bool
deriving DecidableEq, Repr

/-- The open episode as STATUS gives it (R49). -/
structure EpisodeStatus where
  number : Nat
  firstBoundary : Nat
  events : Nat
  openCount : Nat
  dropped : Nat
deriving DecidableEq, Repr

/-- A capture slot as STATUS gives it (R63). -/
structure CaptureStatus where
  phase : CapturePhase
  recordId : Option Nat
  episodes : List Nat
  kinds : Quad Kind
  first : Option Nat
  halfCycles : Nat
  remaining : Nat
  preUnread : Nat
  readPos : Nat
  counts : Counts
  heldRun : Nat
  stagingFill : Nat
  flags : CaptureFlags
  pending : Option Nat
  ringFill : Nat
deriving DecidableEq, Repr

/-- A scheduled window as STATUS gives it (R83). -/
structure WindowStatus where
  start : Nat
  stop : Option Nat
  done : Quad Bool
deriving DecidableEq, Repr

/-- The current interval as STATUS gives it (R83). -/
structure IntervalStatus where
  windows : Nat
  channels : List Chan
deriving DecidableEq, Repr

/-- A note as NOTE_LIST gives it (R142). -/
structure NoteSummary where
  id : Nat
  site : Nat
  created : Nat
  tags : BitVec 32
  textLength : Nat
  live : Nat
  lost : Nat
deriving DecidableEq, Repr

/-- What STATUS returns for each section (R201), item by item as the rules cited there list them. -/
inductive StatusView where
  | part (parkState : ParkState) (retention : Option Retention) (instant seconds : Nat) (clockSet : Bool)
      (queueFill : Nat) (replyWaits : Bool) (counters : List Nat)
  | sessions (slots : List SlotStatus) (event : Option SessionEvent)
  | tracker (mode : TrackerMode) (reference : Option Chan) (position : Nat) (newest : Option (Nat × Nat))
      (lPrev handovers : Nat) (change : Option ReferenceChange) (chatter forcedCloses : Nat)
  | detector (channels : List ChannelStatus) (episode : Option EpisodeStatus) (outboxFill : Nat)
  | capture (slots : List CaptureStatus)
  | harmonic (windows : List WindowStatus) (current : Option IntervalStatus) (ending : Bool)
      (outboxFill late lost : Nat) (staged : Bool)
  | store (free claimed entries writing nextId lowMark qp qs : Nat) (low : Bool) (parkState : ParkState)
      (retention : Option Retention) (readout : Option (Nat × Nat)) (reclaimed : Nat)
  | sites (openSite : Option Nat) (registry notes nextNote : Nat)
  | print (mode : GenMode) (paper : Paper) (head : Head) (jobs underruns : Nat)
  | notices (requests masked : BitVec 12) (service : List ServiceEntry) (mode : NoticeMode) (base : Nat)
      (polling : Bool) (offered : Option (Fin 12)) (waiting : Bool)
  | dport (passthrough reply periodic record : Nat) (sendBuffer : Option (Nat × Nat)) (hold : Bool)
      (counters : List Nat)
deriving DecidableEq, Repr

/-- The results a reply carries, as each command's rule gives them (R195). A refused command's body is empty; a
BAD_TABLE reply carries the failing index. -/
inductive ReplyBody where
  | empty
  | failing (index : Nat)
  | table (returned : Nat) (entries : List TableEntry)
  | status (v : StatusView)
  | clockSet (before after : Nat)
  | captureId (id : Nat)
  | seconds (n : Nat)
  | sites (entries : List SiteEntry)
  | noteId (id : Nat)
  | pinCount (n : Nat)
  | unlinked (status : LinkStatus) (pins : Option Nat)
  | pinsRemoved (n : Nat)
  | note (n : Note) (kinds : List (Option RecordKind))
  | notes (entries : List NoteSummary) (continuation : Option Nat)
  | records (entries : List DirEntry) (continuation : Option Nat)
  | readout (length offset : Nat)
  | pagesFreed (n : Nat)
  | wiped (entries : Nat)
  | settings (low qp qs : Nat)
  | dropped (entries pages : Nat)
  | jobId (id : Nat)
  | cancelled (job rows : Nat)
  | jobs (queue : List Job) (finished : List JobOutcome) (mode : GenMode) (paper : Paper) (head : Head)
      (line snapshot : Nat) (feedRows : Option Nat) (underruns : Nat)
  | acked (code : Option (Fin 12)) (cascade : Option (Slot × BitVec 48 × Nat))
  | polled (code : Option (Fin 12)) (cascade : Option (Slot × BitVec 48 × Nat)) (requests masked : BitVec 12)
      (service : List ServiceEntry)
  | ended (code : Fin 12)
  | mask (m : BitVec 12)
  | mode (m : NoticeMode)
  | polling (on : Bool)
deriving DecidableEq, Repr

/-- A REPLY frame (R195). -/
structure Reply where
  tag : BitVec 16
  code : Byte
  outcome : OutcomeCode
  truncated : Bool
  body : ReplyBody
deriving DecidableEq, Repr

/-- A RECORD frame (R188, R204). -/
structure RecordFrame where
  id : Nat
  offset : Nat
  last : Bool
  data : List Byte
deriving DecidableEq, Repr

/-- The frames the part sends downstream (R184). -/
inductive DownFrame where
  | reply (r : Reply)
  | notice (source : Fin 12) (requests : BitVec 12)
  | podReply (slot : Byte) (tag : BitVec 16) (body : List Byte)
  | sample (f : SampleFrame)
  | record (f : RecordFrame)
deriving DecidableEq, Repr

/-- The queue a frame in flight came from (R184). -/
inductive DownSource where
  | passthrough
  | reply
  | periodic
  | record
deriving DecidableEq, Repr

/-- The print engine (08). -/
structure PrintEngine where
  templates : Quad (List TemplateLine)
  timing : TimingEntry
  jobs : List Job
  finished : List JobOutcome
  nextJob : Nat
  composer : Composer
  halfA : BandHalf
  halfB : BandHalf
  gen : Generator
  dots : List Byte
  strobe : Bool
  paper : Paper
  head : Head
  deferred : List Reply
  underruns : Nat
deriving DecidableEq, Repr

/-- The notice unit (R168). `requests` and `masked` hold source k in bit k. -/
structure NoticeUnit where
  requests : BitVec 12
  masked : BitVec 12
  service : List ServiceEntry
  mode : NoticeMode
  base : Fin 12
  polling : Bool
  offered : Option (Fin 12)
  waiting : Bool
deriving DecidableEq, Repr

/-- A record of the periodic queue or of the send buffer (R184): its id and bytes. -/
structure RecordCopy where
  id : Nat
  bytes : List Byte
deriving DecidableEq, Repr

/-- The D-port (R184, R193). `placeFreed` holds when a place of the reply queue has become free and no waiting
producer has taken it (R174, R187). Log 39. -/
structure DPort where
  passthrough : List SampleFrame
  reply : List DownFrame
  periodic : List RecordCopy
  sendBuffer : Option (RecordCopy × Nat)
  record : List RecordFrame
  inFlight : Option (DownFrame × DownSource)
  hold : Bool
  pendingHold : Option Reply
  placeFreed : Bool
  crcErrorsU : Nat
  crcErrorsD : Nat
  frameErrorsU : Nat
  frameErrorsD : Nat
  passthroughDrops : Nat
deriving DecidableEq, Repr

/-- The command unit (R196). The queue's frames are the commands they carry; `next` is the frame that has left the queue
to be run. -/
structure CommandUnit where
  queue : List Instr
  next : Option Instr
  running : Option (BitVec 16 × Byte)
  waiting : Option Reply
  overflows : Nat
deriving DecidableEq, Repr

/-- The survey clock (R200). Log 4. -/
structure SurveyClock where
  seconds : Nat
  isSet : Bool
  fraction : Nat
deriving DecidableEq, Repr

/-! ### The part -/

/-- Everything the part holds, and the queue of rows that wait to be taken. -/
structure State where
  pending : List Instr
  instant : Nat
  survey : SurveyEntry
  clock : SurveyClock
  session : SessionUnit
  tracker : Tracker
  detector : Quad (Quad ChannelState)
  episodes : EpisodeUnit
  capture : Quad CaptureSlot
  harmonic : HarmonicEngine
  store : Store
  sites : SiteUnit
  print : PrintEngine
  notices : NoticeUnit
  dport : DPort
  cmd : CommandUnit
deriving DecidableEq, Repr

/-! ### One block replaced -/

namespace State

/-- The part with `pending` replaced. -/
def setPending (s : State) (x : List Instr) : State := { s with pending := x }

/-- The part with `instant` replaced. -/
def setInstant (s : State) (x : Nat) : State := { s with instant := x }

/-- The part with `survey` replaced. -/
def setSurvey (s : State) (x : SurveyEntry) : State := { s with survey := x }

/-- The part with `clock` replaced. -/
def setClock (s : State) (x : SurveyClock) : State := { s with clock := x }

/-- The part with `session` replaced. -/
def setSession (s : State) (x : SessionUnit) : State := { s with session := x }

/-- The part with `tracker` replaced. -/
def setTracker (s : State) (x : Tracker) : State := { s with tracker := x }

/-- The part with `detector` replaced. -/
def setDetector (s : State) (x : Quad (Quad ChannelState)) : State := { s with detector := x }

/-- The part with `episodes` replaced. -/
def setEpisodes (s : State) (x : EpisodeUnit) : State := { s with episodes := x }

/-- The part with `capture` replaced. -/
def setCapture (s : State) (x : Quad CaptureSlot) : State := { s with capture := x }

/-- The part with `harmonic` replaced. -/
def setHarmonic (s : State) (x : HarmonicEngine) : State := { s with harmonic := x }

/-- The part with `store` replaced. -/
def setStore (s : State) (x : Store) : State := { s with store := x }

/-- The part with `sites` replaced. -/
def setSites (s : State) (x : SiteUnit) : State := { s with sites := x }

/-- The part with `print` replaced. -/
def setPrint (s : State) (x : PrintEngine) : State := { s with print := x }

/-- The part with `notices` replaced. -/
def setNotices (s : State) (x : NoticeUnit) : State := { s with notices := x }

/-- The part with `dport` replaced. -/
def setDport (s : State) (x : DPort) : State := { s with dport := x }

/-- The part with `cmd` replaced. -/
def setCmd (s : State) (x : CommandUnit) : State := { s with cmd := x }

end State

/-! ### Power-on values -/

/-- A slot at power-on (R1). -/
def PodSlot.reset : PodSlot where
  phase := .empty
  serial := 0
  kinds := Quad.fill .none
  debounceCount := 0
  debounceTimer := none
  quietTimer := none
  lastSeq := none
  passthrough := false
  pendingSet := 0
  endReason := none
  ingress := []
  ingressDrops := 0
  lane := none

/-- The session unit at power-on (R1). -/
def SessionUnit.reset : SessionUnit where
  slots := Quad.fill PodSlot.reset
  event := none
  control := []
  up := []
  upInFlight := none
  stray := 0
  controlDrops := 0
  podReplyDrops := 0
  upDrops := 0
  laneResyncs := 0

/-- The tracker at power-on (R21, R30). -/
def Tracker.reset : Tracker where
  mode := .free
  reference := none
  decision := none
  position := 0
  side := .unknown
  forcedRun := 0
  crossingCloses := 0
  lastDirection := .falling
  newest := none
  nextNumber := 1
  list := []
  lPrev := 128
  handoverCount := 0
  change := none
  chatter := 0
  forcedCloses := 0
  table := Quad.fill none

/-- The THRESHOLD entry of power-on (R40). -/
def ThresholdEntry.reset : ThresholdEntry where
  watch := false
  nc := 0
  ts := 900
  ti := 100
  tw := 1100
  hy := 20

/-- A channel at power-on (R37). -/
def ChannelState.reset : ChannelState where
  held := none
  inForce := ThresholdEntry.reset
  staged := none
  state := .normal
  event := none
  listed := false
  pendingUnwatched := false

/-- No flag of an episode set. -/
def EpisodeFlags.clear : EpisodeFlags := ⟨false, false, false, false⟩

/-- No flag of a channel event set. -/
def EventFlags.clear : EventFlags := ⟨false, false, false, false, false, false, false⟩

/-- The episode unit at power-on (R49, R60). -/
def EpisodeUnit.reset : EpisodeUnit where
  current := none
  outbox := []
  writer := none
  lost := 0
  skips := 0

/-- No flag of a capture set. -/
def CaptureFlags.clear : CaptureFlags := ⟨false, false, false, false, false, false, false⟩

/-- Nothing counted. -/
def Counts.zero : Counts := ⟨0, 0, 0, 0⟩

/-- A capture slot at power-on (R61, R62, R63). -/
def CaptureSlot.reset : CaptureSlot where
  entry := ⟨true, 2, 4⟩
  ring := []
  ringWrite := 0
  phase := .idle
  recordId := none
  site := 0
  episodes := []
  kinds := Quad.fill .none
  first := none
  halfCycles := 0
  remaining := 0
  preUnread := 0
  readPos := 0
  counts := Counts.zero
  held := Counts.zero
  runDue := false
  headerDue := none
  waiting := []
  behind := []
  staging := []
  flags := CaptureFlags.clear
  preLimit := none
  episodesClosed := false
  pending := none

/-- The harmonic engine at power-on (R80, R81, R83, R101). -/
def HarmonicEngine.reset : HarmonicEngine where
  bins := [some 1, some 2, some 3, some 5, some 7] ++ List.replicate 19 none
  params := ⟨List.replicate 16 false, 75, true⟩
  staged := none
  schedule := []
  current := none
  ending := none
  outbox := []
  writer := none
  late := 0
  lost := 0
  lanes := Quad.fill none

/-- The readout when it is NONE (R117). -/
def Readout.reset : Readout := ⟨.none, false, 0, 0, 0, [], []⟩

/-- The number of pages of the record memory (R102). -/
def pageCount : Nat := 16384

/-- The record store at power-on (R126). -/
def Store.reset : Store where
  mem := []
  free := List.range pageCount
  dir := []
  nextId := 1
  lowMark := 256
  qp := 8
  qs := 4
  holder := .none
  used := 0
  lastServed := .readout
  burst := none
  lastSlot := 3
  readout := Readout.reset
  parkState := .active
  retention := none
  reclaimed := 0

/-- The site unit at power-on (R127, R134, R144). -/
def SiteUnit.reset : SiteUnit := ⟨[], [], 1⟩

/-- The composer when it is IDLE (R152). -/
def Composer.reset : Composer where
  state := .idle
  line := 0
  begun := false
  rows := 0
  snapshot := []
  lastCandidate := 0
  harmonic := none
  notes := []
  noteRow := 0
  read := .none
  half := .a

/-- The print engine at power-on (R145, R147, R167). The P-port's lines are DESIGN CHOICE (log 9). -/
def PrintEngine.reset : PrintEngine where
  templates := Quad.fill []
  timing := ⟨1, 1, 1, 1⟩
  jobs := []
  finished := []
  nextJob := 1
  composer := Composer.reset
  halfA := .free
  halfB := .free
  gen := ⟨.held, .a, 0, 0, .paperFeed, none⟩
  dots := List.replicate 48 0
  strobe := false
  paper := .present
  head := .ok
  deferred := []
  underruns := 0

/-- The notice unit at power-on (R168): every source masked. -/
def NoticeUnit.reset : NoticeUnit where
  requests := 0
  masked := BitVec.allOnes 12
  service := []
  mode := .fixed
  base := 0
  polling := false
  offered := none
  waiting := false

/-- The D-port at power-on (R184, R194). -/
def DPort.reset : DPort where
  passthrough := []
  reply := []
  periodic := []
  sendBuffer := none
  record := []
  inFlight := none
  hold := false
  pendingHold := none
  placeFreed := false
  crcErrorsU := 0
  crcErrorsD := 0
  frameErrorsU := 0
  frameErrorsD := 0
  passthroughDrops := 0

/-- The command unit at power-on (R196, R203). -/
def CommandUnit.reset : CommandUnit := ⟨[], none, none, none, 0⟩

/-- The part right after power-on (R203 and the power-on rule of each chapter), with no row waiting. -/
def State.reset : State where
  pending := []
  instant := 0
  survey := ⟨50, 64, true⟩
  clock := ⟨0, false, 0⟩
  session := SessionUnit.reset
  tracker := Tracker.reset
  detector := Quad.fill (Quad.fill ChannelState.reset)
  episodes := EpisodeUnit.reset
  capture := Quad.fill CaptureSlot.reset
  harmonic := HarmonicEngine.reset
  store := Store.reset
  sites := SiteUnit.reset
  print := PrintEngine.reset
  notices := NoticeUnit.reset
  dport := DPort.reset
  cmd := CommandUnit.reset

end Sys2Proof.Machine
end

