-- ==== Sys2Proof/Machine/Ops.lean ====
section
/-! DEFINITION. The operations every block uses: counters, whole-number arithmetic, little-endian bytes, the check
field, the record memory, and access to a slot, a channel and a capture slot. -/

namespace Sys2Proof.Machine

open Sys2Proof

/-! ### Counters and whole numbers -/

/-- A diagnostic counter counted once: 16 bits, saturating at 65535 (00_scope.md). -/
def bump (n : Nat) : Nat := if n < 65535 then n + 1 else n

/-- A result clamped to a limit (00_scope.md). -/
def clamp (limit n : Nat) : Nat := if n ≤ limit then n else limit

/-- The distance of two whole numbers. -/
def distance (a b : Nat) : Nat := (a - b) + (b - a)

/-- The square root digit by digit: from a root `r` of the digits above, the digits of weight `2^k` and below. -/
def isqrtFrom (x : Nat) : Nat → Nat → Nat
  | 0, r => if (r + 1) * (r + 1) ≤ x then r + 1 else r
  | k + 1, r =>
    let t := r + 2 ^ (k + 1)
    isqrtFrom x k (if t * t ≤ x then t else r)

/-- isqrt(x), the largest integer whose square does not exceed x (00_scope.md). -/
def isqrt (x : Nat) : Nat := isqrtFrom x (x.log2 / 2) 0

/-! ### Bytes -/

/-- A byte of a number's low eight bits. -/
def byte (n : Nat) : Byte := BitVec.ofNat 8 n

/-- A number in `n` bytes, least significant byte first (00_scope.md). -/
def le : Nat → Nat → List Byte
  | 0, _ => []
  | n + 1, x => byte x :: le n (x / 256)

/-- The number that bytes hold, least significant byte first. -/
def ofLe : List Byte → Nat
  | [] => 0
  | b :: rest => b.toNat + 256 * ofLe rest

/-- `n` bytes of zero. -/
def zeros (n : Nat) : List Byte := List.replicate n 0

/-- One bit of the check field's division by x¹⁶ + x¹² + x⁵ + 1 (00_scope.md). -/
def crcBit (c : BitVec 16) : BitVec 16 := if c.msb then (c <<< 1) ^^^ 0x1021#16 else c <<< 1

/-- The check field with one more byte taken in, most significant bit first. -/
def crcByte (c : BitVec 16) (b : Byte) : BitVec 16 :=
  crcBit (crcBit (crcBit (crcBit (crcBit (crcBit (crcBit (crcBit (c ^^^ (b.zeroExtend 16 <<< 8)))))))))

/-- The CRC-16 over bytes: initial value 0xFFFF, no reflection, no final inversion (00_scope.md, R181). -/
def crc16 (bytes : List Byte) : BitVec 16 := bytes.foldl crcByte 0xFFFF#16

/-- Bytes with their check field behind them, least significant byte first (R204). -/
def withCrc (bytes : List Byte) : List Byte := bytes ++ le 2 (crc16 bytes).toNat

/-! ### The record memory (R102) -/

/-- A byte of the record memory. A byte that nothing has written reads 0 (log 8). -/
def readByte : List Host.Cell → Nat → Byte
  | [], _ => 0
  | (k, v) :: rest, a => if k = a then v else readByte rest a

/-- A byte written to the record memory, in canonical form. -/
def writeByte : List Host.Cell → Nat → Byte → List Host.Cell
  | [], a, v => if v = 0 then [] else [(a, v)]
  | (k, w) :: rest, a, v =>
    if a < k then (if v = 0 then (k, w) :: rest else (a, v) :: (k, w) :: rest)
    else if a = k then (if v = 0 then rest else (a, v) :: rest)
    else (k, w) :: writeByte rest a v

/-- The canonical form: addresses strictly rising and above a bound, no listed byte 0. -/
def memWfFrom : Nat → List Host.Cell → Bool
  | _, [] => true
  | lo, (k, v) :: rest => decide (lo ≤ k) && decide (v ≠ 0) && memWfFrom (k + 1) rest

/-- The canonical form of the record memory. -/
def memWf (m : List Host.Cell) : Bool := memWfFrom 0 m

/-- The address of byte `o` of a record: page number floor(o / 1024) of its chain, offset o mod 1024 (R102). -/
def chainAddr (chain : List Nat) (o : Nat) : Nat := chain.getD (o / 1024) 0 * 1024 + o % 1024

/-- `n` bytes of a record from offset `o`. -/
def readRecord (m : List Host.Cell) (chain : List Nat) (o : Nat) : Nat → List Byte
  | 0 => []
  | n + 1 => readByte m (chainAddr chain o) :: readRecord m chain (o + 1) n

/-- Bytes written into a record from offset `o`. -/
def writeRecord (m : List Host.Cell) (chain : List Nat) (o : Nat) : List Byte → List Host.Cell
  | [] => m
  | b :: rest => writeRecord (writeByte m (chainAddr chain o) b) chain (o + 1) rest

/-- The record memory with only the bytes below an address kept, as a park leaves it (R122). -/
def keepBelow (m : List Host.Cell) (limit : Nat) : List Host.Cell := m.filter (fun c => decide (c.1 < limit))

/-! ### Slots, channels and capture slots -/

namespace State

/-- The slot's entry of the pod slot table. -/
def slot (s : State) (i : Slot) : PodSlot := s.session.slots.get i

/-- The part with a slot's entry replaced. -/
def setSlot (s : State) (i : Slot) (p : PodSlot) : State :=
  s.setSession { s.session with slots := s.session.slots.set i p }

/-- The slot's part of the capture unit. -/
def cap (s : State) (i : Slot) : CaptureSlot := s.capture.get i

/-- The part with a slot's part of the capture unit replaced. -/
def setCap (s : State) (i : Slot) (c : CaptureSlot) : State := s.setCapture (s.capture.set i c)

/-- What the RMS detector keeps for a channel. -/
def chan (s : State) (c : Chan) : ChannelState := (s.detector.get c.slot).get c.index

/-- The part with what the RMS detector keeps for a channel replaced. -/
def setChan (s : State) (c : Chan) (x : ChannelState) : State :=
  s.setDetector (s.detector.set c.slot ((s.detector.get c.slot).set c.index x))

/-- Whether a slot is ACTIVE. -/
def isActive (s : State) (i : Slot) : Bool := (s.slot i).phase == .active

/-- Whether the part is parked (R122). -/
def parked (s : State) : Bool := s.store.parkState == .parked

end State

/-- The clipped flag: code 0, OVER_RANGE, is in the pending set (R10). -/
def PodSlot.clipped (p : PodSlot) : Bool := p.pendingSet.getLsbD 0

/-- The four channels of a slot in index order. -/
def slotChannels (i : Slot) : List Chan := indexes.map (channel i)

/-- The sixteen channels in order. -/
def channels : List Chan := indexes.flatMap slotChannels

/-- The slot a number names, if it is 0..3. -/
def slotOf (n : Nat) : Option Slot := if h : n < 4 then some ⟨n, h⟩ else none

/-- The channel a number names, if it is 0..15. -/
def chanOf (n : Nat) : Option Chan := if h : n < 16 then some ⟨n, h⟩ else none

/-- The OPEN site, of which there is at most one (R127). -/
def State.openSite (s : State) : Option SiteEntry := s.sites.registry.find? (fun e => e.state == .opened)

end Sys2Proof.Machine
end

