-- ==== Sys2Proof/Machine/Flags.lean ====
section
/-! DEFINITION. How the part's flags and sets become bytes of records and frames (R204, R205, R206). -/

namespace Sys2Proof.Machine

open Sys2Proof

/-- Flags as bits from bit 0 upward, in the order given (R205). -/
def packFlags : List Bool → Nat
  | [] => 0
  | b :: rest => (if b then 1 else 0) + 2 * packFlags rest

/-- An episode's flags: CONTINUES, CONTINUATION, CUT, NO_CAPTURE (R205). -/
def EpisodeFlags.pack (f : EpisodeFlags) : Byte := byte (packFlags [f.continues, f.continuation, f.cut, f.noCapture])

/-- A channel event's flags: GAPPED, CLIPPED, POD_LOST, CUT, UNWATCHED, RETHRESHOLD, CONTINUATION (R205). -/
def EventFlags.pack (f : EventFlags) : Byte :=
  byte (packFlags [f.gapped, f.clipped, f.podLost, f.cut, f.unwatched, f.rethreshold, f.continuation])

/-- A capture's flags: LEAN, JOINED, SKIPPED, TRUNCATED, POD_LOST, MANUAL, CUT (R206). -/
def CaptureFlags.pack (f : CaptureFlags) : Byte :=
  byte (packFlags [f.lean, f.joined, f.skipped, f.truncated, f.podLost, f.manual, f.cut])

/-- A HARMONIC record's flags: CUT, RETABLED, NO_FREQ (R205). -/
def HarmonicFlags.pack (f : HarmonicFlags) : Byte := byte (packFlags [f.cut, f.retabled, f.noFreq])

/-- A channel kind in two bits: 0 NONE, 1 VOLTAGE, 2 CURRENT (R204). -/
def kindCode : Kind → Nat
  | .none => 0
  | .voltage => 1
  | .current => 2

/-- The channel kind of two bits; 3 is taken as NONE (R204). -/
def kindOf (n : Nat) : Kind := if n = 1 then .voltage else if n = 2 then .current else .none

/-- Four kinds in a byte, index 0 in bits 1..0 (R204). -/
def packKinds (k : Quad Kind) : Byte := byte (kindCode k.q0 + 4 * kindCode k.q1 + 16 * kindCode k.q2 + 64 * kindCode k.q3)

/-- The four kinds of a byte (R204). -/
def unpackKinds (b : Byte) : Quad Kind :=
  ⟨kindOf (b.toNat % 4), kindOf (b.toNat / 4 % 4), kindOf (b.toNat / 16 % 4), kindOf (b.toNat / 64 % 4)⟩

/-- Whether a set of sources holds a source (R168). -/
def hasSource (set : BitVec 12) (k : Fin 12) : Bool := set.getLsbD k.val

/-- A set of sources with a source added. -/
def addSource (set : BitVec 12) (k : Fin 12) : BitVec 12 := set ||| (1#12 <<< k.val)

/-- A set of sources with a source removed. -/
def removeSource (set : BitVec 12) (k : Fin 12) : BitVec 12 := set &&& ~~~(1#12 <<< k.val)

/-- A pending set with a sub-notice code added or removed (R10). -/
def setCode (set : BitVec 8) (code : Fin 8) (on : Bool) : BitVec 8 :=
  if on then set ||| (1#8 <<< code.val) else set &&& ~~~(1#8 <<< code.val)

/-- The highest code of a pending set (R176). -/
def highestCode (set : BitVec 8) : Option Nat := (List.range 8).reverse.find? (fun k => set.getLsbD k)

end Sys2Proof.Machine
end

