-- ==== Sys2Proof/Machine/Layout.lean ====
section
/-! DEFINITION. The byte layouts of trunk frames and of records (R204, R205, R206), and the intake tests of a received
frame (R181 to R183). -/

namespace Sys2Proof.Machine

open Sys2Proof

/-! ### Trunk frames (R204) -/

/-- One set of a SAMPLE frame: four codes, index 0 first. -/
def setBytes (s : SampleSet) : List Byte := s.toList.flatMap (fun c => le 2 c.toNat)

/-- A SAMPLE frame without its check field. -/
def sampleBody (f : SampleFrame) : List Byte :=
  byte (128 + 32 * f.slot.val + f.sets.length) :: f.seq :: le 4 f.first.toNat ++ f.sets.flatMap setBytes

/-- A control frame without its check field. -/
def controlBody : ControlFrame → List Byte
  | .attach serial kinds => 0x01#8 :: le 6 serial.toNat ++ [packKinds kinds]
  | .status slot body => 0x02#8 :: slot :: body
  | .podReply slot tag body => 0x03#8 :: slot :: le 2 tag.toNat ++ body
  | .podNotice slot code setting => [0x04#8, slot, byte (code.val + if setting then 128 else 0)]

/-- A frame sent upstream, without its check field. -/
def upBody : UpFrame → List Byte
  | .grant serial result slot instant fNom =>
    0x11#8 :: le 6 serial.toNat ++
      [match result with | .ok => 0 | .noSlot => 1 | .busy => 2,
       match slot with | some i => byte i.val | none => 0xFF#8] ++ le 6 instant ++ [byte fNom]
  | .detach slot serial => 0x12#8 :: byte slot.val :: le 6 serial.toNat
  | .podCommand slot tag body => 0x13#8 :: byte slot.val :: le 2 tag.toNat ++ body
  | .podAck slot code => [0x14#8, byte slot.val, byte code]
  | .podEnd slot code => [0x15#8, byte slot.val, byte code]

/-- A NOTICE frame without its check field. -/
def noticeBody (source : Fin 12) (requests : BitVec 12) : List Byte := 0x32#8 :: byte source.val :: le 2 requests.toNat

/-- A RECORD frame without its check field. -/
def recordBody (f : RecordFrame) : List Byte :=
  0x33#8 :: le 4 f.id ++ le 4 f.offset ++ [if f.last then 1 else 0] ++ le 2 f.data.length ++ f.data

/-- The number of an outcome code, in the order of the outcome table of 00_scope.md (R204). -/
def OutcomeCode.number : OutcomeCode → Byte
  | .ok => 0
  | .busy => 1
  | .badParam => 2
  | .badTable => 3
  | .noSite => 4
  | .siteOpen => 5
  | .notFound => 6
  | .full => 7
  | .pinned => 8
  | .parked => 9
  | .noPod => 10
  | .unknown => 11

/-- A REPLY frame up to its body: tag, command code, outcome and flags (R204). -/
def replyHead (r : Reply) : List Byte :=
  0x31#8 :: le 2 r.tag.toNat ++ [r.code, r.outcome.number, if r.truncated then 1 else 0]

/-- A frame sent downstream without its check field. `body` is that of a REPLY, whose bytes the manual does not lay out
(log 11). -/
def downBody (body : List Byte) : DownFrame → List Byte
  | .reply r => replyHead r ++ body
  | .notice source requests => noticeBody source requests
  | .podReply slot tag b => controlBody (.podReply slot tag b)
  | .sample f => sampleBody f
  | .record f => recordBody f

/-- A whole frame sent downstream. -/
def downBytes (body : List Byte) (f : DownFrame) : List Byte := withCrc (downBody body f)

/-- A COMMAND frame as it stands on the line (R195, R204): the target is a slot 0..3 or 0xFF for PART. -/
structure CommandFrame where
  tag : BitVec 16
  target : Byte
  code : Byte
  parameters : List Byte
deriving DecidableEq, Repr

/-- A whole COMMAND frame. -/
def commandBytes (f : CommandFrame) : List Byte := withCrc (0x21#8 :: le 2 f.tag.toNat ++ f.target :: f.code :: f.parameters)

/-- The COMMAND frame that a whole received frame holds, for a frame that passes the tests of R181. -/
def parseCommand (bytes : List Byte) : Option CommandFrame :=
  match bytes with
  | [] => none
  | kind :: rest =>
    let body := rest.take (rest.length - 2)
    if kind = 0x21#8 ∧ 4 ≤ body.length then
      some ⟨BitVec.ofNat 16 (ofLe (body.take 2)), body.getD 2 0, body.getD 3 0, body.drop 4⟩
    else none

/-- A text parameter, or text in a reply: a length byte and the characters (R204). -/
def textBytes (t : Text) : List Byte := byte t.length :: t

/-- The text parameter at the front of a command's parameters, and what follows it; none where its bytes run out. -/
def parseText : List Byte → Option (Text × List Byte)
  | [] => none
  | n :: rest => if n.toNat ≤ rest.length then some (rest.take n.toNat, rest.drop n.toNat) else none

/-- A whole SAMPLE frame: 6 + 8n + 2 bytes. -/
def sampleBytes (f : SampleFrame) : List Byte := withCrc (sampleBody f)

/-- A whole control frame. -/
def controlBytes (f : ControlFrame) : List Byte := withCrc (controlBody f)

/-- A whole frame sent upstream. -/
def upBytes (f : UpFrame) : List Byte := withCrc (upBody f)

/-- A frame that the U-port dispatches (R182). -/
inductive UpstreamFrame where
  | sample (f : SampleFrame)
  | control (f : ControlFrame)
deriving DecidableEq, Repr

/-- The sets of `n` times eight bytes. -/
def parseSets : Nat → List Byte → List SampleSet
  | 0, _ => []
  | n + 1, bytes =>
    let code (k : Nat) : Code := BitVec.ofNat 16 (ofLe ((bytes.drop (2 * k)).take 2))
    ⟨code 0, code 1, code 2, code 3⟩ :: parseSets n (bytes.drop 8)

/-- The frame that a whole received frame holds, for a frame that passes the tests of R181. The check field is not
looked at again. -/
def parseUpstream (bytes : List Byte) : Option UpstreamFrame :=
  match bytes with
  | [] => none
  | kind :: rest =>
    let body := rest.take (rest.length - 2)
    if kind.msb then
      let n := kind.toNat % 32
      some (.sample ⟨⟨kind.toNat / 32 % 4, by omega⟩, body.headD 0, BitVec.ofNat 32 (ofLe ((body.drop 1).take 4)),
        parseSets n (body.drop 5)⟩)
    else if kind = 0x01#8 then
      some (.control (.attach (BitVec.ofNat 48 (ofLe (body.take 6))) (unpackKinds (body.getD 6 0))))
    else if kind = 0x02#8 then some (.control (.status (body.headD 0) (body.drop 1)))
    else if kind = 0x03#8 then
      some (.control (.podReply (body.headD 0) (BitVec.ofNat 16 (ofLe ((body.drop 1).take 2))) (body.drop 3)))
    else if kind = 0x04#8 then
      let b := body.getD 1 0
      some (.control (.podNotice (body.headD 0) ⟨b.toNat % 8, by omega⟩ b.msb))
    else none

/-! ### Intake tests (R181) -/

/-- The counter that a dropped frame is counted under (R181). -/
inductive IntakeError where
  | crc
  | frame
deriving DecidableEq, Repr

/-- The last two bytes equal the check field over the bytes before them, least significant byte first (R181). -/
def crcOk (bytes : List Byte) : Bool :=
  bytes.drop (bytes.length - 2) == le 2 (crc16 (bytes.take (bytes.length - 2))).toNat

/-- The kinds the U-port receives and the whole lengths each allows (R182, R204). -/
def upLengthOk (kind : Byte) (len : Nat) : Option Bool :=
  if kind.msb then
    let n := kind.toNat % 32
    some (decide (1 ≤ n) && decide (n ≤ 16) && len == 6 + 8 * n + 2)
  else if kind = 0x01#8 then some (len == 10)
  else if kind = 0x02#8 then some (decide (4 ≤ len) && decide (len ≤ 20))
  else if kind = 0x03#8 then some (decide (6 ≤ len) && decide (len ≤ 70))
  else if kind = 0x04#8 then some (len == 5)
  else none

/-- The kind the D-port receives and the whole lengths it allows (R183, R204). -/
def downLengthOk (kind : Byte) (len : Nat) : Option Bool :=
  if kind = 0x21#8 then some (decide (7 ≤ len) && decide (len ≤ 1536)) else none

/-- The tests of R181 in order, for a port's longest frame and its kinds: the counter of the first that fails. -/
def judgeFrame (longest : Nat) (lengthOk : Byte → Nat → Option Bool) (f : LineFrame) : Option IntakeError :=
  if !f.symbolsOk then some .crc
  else if f.bytes.length < 3 ∨ longest < f.bytes.length then some .frame
  else if !crcOk f.bytes then some .crc
  else
    match lengthOk (f.bytes.headD 0) f.bytes.length with
    | none => some .frame
    | some false => some .frame
    | some true => none

/-- The U-port's intake tests. -/
def judgeUp (f : LineFrame) : Option IntakeError := judgeFrame 136 upLengthOk f

/-- The D-port's intake tests. -/
def judgeDown (f : LineFrame) : Option IntakeError := judgeFrame 1536 downLengthOk f

/-! ### Records (R205, R206) -/

/-- The twelve bytes every record opens with (R205). -/
def recordHead (kind : Nat) (flags : Byte) (site id length : Nat) : List Byte :=
  byte kind :: flags :: le 2 site ++ le 4 id ++ le 4 length

/-- The code of an event kind in a record (R205). -/
def eventKindCode : EventKind → Nat
  | .dip => 0
  | .swell => 1
  | .interruption => 2

/-- A channel event entry of 24 bytes (R205). -/
def eventBytes (e : EventEntry) : List Byte :=
  [byte e.chan.val, byte (eventKindCode e.kind), e.flags.pack, 0] ++ le 6 e.start ++ le 6 e.stop ++ le 2 e.halfCycles ++
    le 2 e.extreme ++ le 2 e.permille ++ zeros 2

/-- Length of an EPISODE record (R205). -/
def EpisodeRecord.length (r : EpisodeRecord) : Nat := 64 + 24 * r.events.length

/-- An EPISODE record's bytes with its record id (R205). -/
def episodeBytes (r : EpisodeRecord) (id : Nat) : List Byte :=
  recordHead 1 r.flags.pack r.site id r.length ++ le 2 r.number ++ [byte r.events.length, byte r.worst.val] ++
    le 2 r.worstPermille ++ le 2 r.dropped ++ le 6 r.start ++ le 6 r.stop ++ le 4 r.seconds ++
    [byte r.captureIds.length] ++ zeros 3 ++
    (List.range 4).flatMap (fun k => le 4 (r.captureIds.getD k 0)) ++ zeros 8 ++ r.events.flatMap eventBytes

/-- A channel entry of a HARMONIC record, of 10 + 6b bytes (R205). -/
def channelBytes (c : ChannelRecord) : List Byte :=
  [byte c.chan.val, if c.noData then 1 else 0, byte c.valid, byte c.void, byte c.noFund, 0] ++ le 2 c.meanThd ++
    le 2 c.maxThd ++ c.bins.flatMap (fun b => le 2 b.mean ++ le 2 b.max ++ le 2 b.ratioMax)

/-- Length of a HARMONIC record (R205). -/
def HarmonicRecord.length (r : HarmonicRecord) : Nat := 60 + r.channels.length * (10 + 6 * r.bins.length)

/-- A HARMONIC record's bytes with its record id (R205). -/
def harmonicBytes (r : HarmonicRecord) (id : Nat) : List Byte :=
  recordHead 3 r.flags.pack r.site id r.length ++ le 2 r.number ++ [byte r.windows, byte r.bins.length] ++ le 6 r.start ++
    le 6 r.stop ++ le 4 r.freq ++ [byte r.channels.length, 0] ++ (List.range 24).map (fun k => byte (r.bins.getD k 0)) ++
    zeros 2 ++ r.channels.flatMap channelBytes

/-- The section kind's code (R206). -/
def sectionCode : SectionKind → Nat
  | .waveform => 1
  | .trend => 2
  | .post => 3

/-- A set as a CAPTURE record holds it: an index-0 code of −32768 or −32767 is written as −32766 (R206). -/
def recordSet (s : SampleSet) : SampleSet := if s.q0 = 0x8000#16 ∨ s.q0 = 0x8001#16 then { s with q0 := 0x8002#16 } else s

/-- A trend entry of 12 bytes (R206). -/
def trendBytes (t : TrendEntry) : List Byte :=
  [byte t.length, byte (packFlags (t.gap :: t.clip :: t.codes.toList.map (fun c => c.isNone)))] ++ le 2 t.number ++
    t.codes.toList.flatMap (fun c => le 2 (c.getD 0))

/-- An entry of a CAPTURE record's body (R206). -/
def itemBytes : CaptureItem → List Byte
  | .set s => setBytes (recordSet s)
  | .gapRun n => le 2 0x8000 ++ le 2 n
  | .trend t => trendBytes t
  | .header k => le 2 0x8001 ++ le 2 (sectionCode k)

/-- How many bytes an entry occupies in staging and in the record (R64). -/
def itemSize : CaptureItem → Nat
  | .set _ => 8
  | .gapRun _ => 4
  | .trend _ => 12
  | .header _ => 4

/-- The bytes that entries occupy. -/
def itemsSize (items : List StagedItem) : Nat := (items.map (fun i => itemSize i.item)).sum

/-- The 64-byte header of a CAPTURE record (R206). -/
def captureHeaderBytes (slot : Slot) (c : CaptureSlot) (id length : Nat) : List Byte :=
  recordHead 2 c.flags.pack c.site id length ++ [byte slot.val, packKinds c.kinds, byte c.episodes.length, 0] ++
    (List.range 4).flatMap (fun k => le 2 (c.episodes.getD k 0)) ++
    (match c.first with | some n => le 6 n | none => List.replicate 6 0xFF#8) ++ zeros 2 ++
    le 4 c.counts.pre ++ le 4 c.counts.during ++ le 4 c.counts.trend ++ le 4 c.counts.post ++ zeros 16

/-- The frames a record's bytes are cut into: up to 512 bytes each from an offset, the last flagged LAST (R55, R188). -/
def recordFrames (id : Nat) : Nat → Nat → List Byte → List RecordFrame
  | 0, _, _ => []
  | fuel + 1, offset, bytes =>
    if bytes.length ≤ 512 then [⟨id, offset, true, bytes⟩]
    else ⟨id, offset, false, bytes.take 512⟩ :: recordFrames id fuel (offset + 512) (bytes.drop 512)

end Sys2Proof.Machine
end

