-- ==== Sys2Proof/Machine/Downstream.lean ====
section
/-! DEFINITION. The queues of the two trunk ports and the transmitters that drain them (10, R11). -/

namespace Sys2Proof.Machine

open Sys2Proof

/-! ### The D-port transmitter (R184, R185) -/

/-- The next frame of the periodic send buffer, of up to 512 bytes, flagged LAST if it holds the record's last byte,
and the buffer after it has begun (R188). -/
def sendNext (r : RecordCopy) (next : Nat) : RecordFrame × Option (RecordCopy × Nat) :=
  let last := decide (r.bytes.length ≤ next + 512)
  (⟨r.id, next, last, (r.bytes.drop next).take 512⟩, if last then none else some (r, next + 512))

/-- The transmitter's choice when nothing is in flight: passthrough, reply, periodic, record, the hold state keeping
back all but the replies (R185). A place of the reply queue becomes free as its frame begins. -/
def DPort.choose (d : DPort) : DPort :=
  match d.hold, d.passthrough, d.reply, d.sendBuffer, d.periodic, d.record with
  | false, f :: rest, _, _, _, _ => { d with passthrough := rest, inFlight := some (.sample f, .passthrough) }
  | _, _, f :: rest, _, _, _ => { d with reply := rest, inFlight := some (f, .reply), placeFreed := true }
  | false, [], [], some (r, next), _, _ =>
    { d with sendBuffer := (sendNext r next).2, inFlight := some (.record (sendNext r next).1, .periodic) }
  | false, [], [], none, r :: rest, _ =>
    { d with periodic := rest, sendBuffer := (sendNext r 0).2, inFlight := some (.record (sendNext r 0).1, .periodic) }
  | false, [], [], none, [], f :: rest => { d with record := rest, inFlight := some (.record f, .record) }
  | _, _, _, _, _, _ => d

/-- A frame has become available: the transmitter chooses if nothing is in flight (R185). -/
def DPort.kick (d : DPort) : DPort := if d.inFlight.isNone then d.choose else d

/-- Whether the reply queue has a free place (R187). -/
def DPort.replyRoom (d : DPort) : Bool := decide (d.reply.length < 8)

/-- A frame placed at the tail of the reply queue (R187). -/
def DPort.placeReply (d : DPort) (f : DownFrame) : DPort := ({ d with reply := d.reply ++ [f] } : DPort).kick

/-- A copy of an accepted SAMPLE frame offered to the passthrough queue of 8 frames (R186). -/
def DPort.offerPassthrough (d : DPort) (f : SampleFrame) : DPort :=
  if d.passthrough.length < 8 then ({ d with passthrough := d.passthrough ++ [f] } : DPort).kick
  else { d with passthroughDrops := bump d.passthroughDrops }

/-- RECORD frames placed at the tail of the record queue (R189). -/
def DPort.placeRecords (d : DPort) (fs : List RecordFrame) : DPort := ({ d with record := d.record ++ fs } : DPort).kick

/-- A frame placed in the reply queue. -/
def placeReplyFrame (f : DownFrame) (s : State) : State := s.setDport (s.dport.placeReply f)

/-! ### The U-port transmitter (R192) -/

/-- With nothing in flight, the oldest frame of the upstream queue begins to be sent, and its place becomes free. -/
def SessionUnit.upKick (u : SessionUnit) : SessionUnit :=
  match u.upInFlight, u.up with
  | none, f :: rest => { u with up := rest, upInFlight := some f }
  | _, _ => u

/-- Whether the upstream queue has a free place (R11). -/
def SessionUnit.upRoom (u : SessionUnit) : Bool := decide (u.up.length < 8)

/-- A GRANT, DETACH, POD_ACK or POD_END placed in the upstream queue, or dropped and counted when it is full (R11). -/
def SessionUnit.sendUp (u : SessionUnit) (f : UpFrame) : SessionUnit :=
  if u.upRoom then ({ u with up := u.up ++ [f] } : SessionUnit).upKick else { u with upDrops := bump u.upDrops }

/-- A frame sent upstream. -/
def sendUp (f : UpFrame) (s : State) : State := s.setSession (s.session.sendUp f)

end Sys2Proof.Machine
end

