-- ==== Sys2Proof/Machine/Notice.lean ====
section
/-! DEFINITION. The notice unit's requests, priority, grantability and offers (R168 to R174), and the conditions of
its level sources. -/

namespace Sys2Proof.Machine

open Sys2Proof

/-- The twelve sources by code. -/
def sources : List (Fin 12) := [0, 1, 2, 3, 4, 5, 6, 7, 8, 9, 10, 11]

/-- The source `k` places after another, 11 followed by 0. -/
def sourceAfter (b : Fin 12) (k : Nat) : Fin 12 := ⟨(b.val + k) % 12, Nat.mod_lt _ (by decide)⟩

/-- The priority order in force, highest first (R171). -/
def NoticeUnit.order (n : NoticeUnit) : List (Fin 12) :=
  match n.mode with
  | .fixed => sources
  | .rotating => (List.range 12).map (sourceAfter n.base)

/-- Whether a source is in service. -/
def NoticeUnit.inService (n : NoticeUnit) (k : Fin 12) : Bool := n.service.any (fun e => e.source == k)

/-- Whether a source is grantable (R172). -/
def NoticeUnit.grantable (n : NoticeUnit) (k : Fin 12) : Bool :=
  hasSource n.requests k && !hasSource n.masked k && !n.inService k &&
    match n.mode with
    | .fixed => n.service.all (fun e => decide (k.val < e.source.val))
    | .rotating => n.service.isEmpty

/-- The highest grantable source, or NONE (R172). -/
def NoticeUnit.highest (n : NoticeUnit) : Option (Fin 12) := n.order.find? n.grantable

/-- The offer judged under R173, with the mark of R174 when the reply queue is full. While the mark is yes no frame is
placed and none starts to wait: with no source grantable the offer state becomes NONE, and OFFER_RETRY judges the rest
(log 24). -/
def judgeOffer (s : State) : State :=
  let n := s.notices
  if n.polling then s
  else
    match n.highest with
    | none => s.setNotices { n with offered := none }
    | some g =>
      if n.offered = some g || n.waiting then s
      else if s.dport.replyRoom then
        placeReplyFrame (.notice g n.requests) (s.setNotices { n with offered := some g })
      else (s.setNotices { n with waiting := true }).setDport { s.dport with placeFreed := false }

/-- An edge source's event: the source is added to the request set and the offer is judged (R169). -/
def raise (k : Fin 12) (s : State) : State :=
  judgeOffer (s.setNotices { s.notices with requests := addSource s.notices.requests k })

/-- A level source's condition: the request follows it, and a change is judged (R170). -/
def follow (k : Fin 12) (holds : Bool) (s : State) : State :=
  if hasSource s.notices.requests k = holds then s
  else if holds then raise k s
  else judgeOffer (s.setNotices { s.notices with requests := removeSource s.notices.requests k })

/-! ### Conditions of the level sources -/

/-- The pages claimed by admitted records (R103). -/
def claimed (s : State) : List Nat :=
  (match s.episodes.writer with | some a => a.pages | none => []) ++
    (match s.harmonic.writer with | some a => a.pages | none => [])

/-- The free count: the pages on the free-page list that no write has claimed (R103). -/
def freeCount (s : State) : Nat := s.store.free.length - (claimed s).length

/-- STORE_LOW's condition: the free count less the reserve of 8 is below the low mark (R111). -/
def storeLow (s : State) : Bool := decide (freeCount s < s.store.lowMark + 8)

/-- STORE_LOW judged again (R111). -/
def followStoreLow (s : State) : State := follow 4 (storeLow s) s

/-- POD_CASCADE's condition: some slot's pending set is not empty (R10). -/
def cascadeHolds (s : State) : Bool := s.session.slots.toList.any (fun p => p.pendingSet != 0)

/-- POD_CASCADE judged again. -/
def followCascade (s : State) : State := follow 7 (cascadeHolds s) s

/-- PRINT_STALL's condition: the head job is STALLED (R162). -/
def stallHolds (s : State) : Bool :=
  match s.print.jobs with
  | j :: _ => j.state == .stalled
  | [] => false

/-- PRINT_STALL judged again. -/
def followStall (s : State) : State := follow 8 (stallHolds s) s

end Sys2Proof.Machine
end

