-- ==== Sys2Proof/Machine/Records.lean ====
section
/-! DEFINITION. The record store's shared operations: pages, directory, reclaim, pins and holds, with the counts of
the site registry (R102 to R111, R127). -/

namespace Sys2Proof.Machine

open Sys2Proof

/-! ### Site registry -/

/-- The registry entry of a site. -/
def State.site (s : State) (id : Nat) : Option SiteEntry := s.sites.registry.find? (fun e => e.id == id)

/-- The part with a site's registry entry changed. -/
def updateSite (id : Nat) (f : SiteEntry → SiteEntry) (s : State) : State :=
  s.setSites { s.sites with registry := s.sites.registry.map (fun e => if e.id = id then f e else e) }

/-- One directory entry more names the site (R127). -/
def SiteEntry.addRecord (e : SiteEntry) : SiteEntry := { e with records := e.records + 1 }

/-- One directory entry fewer names the site (R127). -/
def SiteEntry.dropRecord (e : SiteEntry) : SiteEntry := { e with records := e.records - 1 }

/-- An episode or interval number after one is taken; 65535 is followed by 1 (R128). -/
def nextSiteNumber (n : Nat) : Nat := if n < 65535 then n + 1 else 1

/-! ### Directory -/

/-- The directory entry with a record id. -/
def State.entry (s : State) (id : Nat) : Option DirEntry := s.store.dir.find? (fun e => e.id == id)

/-- The COMPLETE directory entry with a record id. -/
def State.completeEntry (s : State) (id : Nat) : Option DirEntry :=
  match s.entry id with
  | some e => if e.state = .complete then some e else none
  | none => none

/-- The part with a directory entry changed. -/
def updateEntry (id : Nat) (f : DirEntry → DirEntry) (s : State) : State :=
  s.setStore { s.store with dir := s.store.dir.map (fun e => if e.id = id then f e else e) }

/-- A directory entry filed in ascending record id (R104). -/
def insertEntry (e : DirEntry) : List DirEntry → List DirEntry
  | [] => [e]
  | d :: rest => if e.id < d.id then e :: d :: rest else d :: insertEntry e rest

/-- A hold placed on a record (R110). -/
def placeHold (id : Nat) (s : State) : State := updateEntry id (fun e => { e with holds := e.holds + 1 }) s

/-- A hold removed (R110). -/
def removeHold (id : Nat) (s : State) : State := updateEntry id (fun e => { e with holds := e.holds - 1 }) s

/-- A pin placed on a record (R110). -/
def placePin (id : Nat) (s : State) : State := updateEntry id (fun e => { e with pins := e.pins + 1 }) s

/-- A pin removed (R110). -/
def removePin (id : Nat) (s : State) : State := updateEntry id (fun e => { e with pins := e.pins - 1 }) s

/-- How many of the two writers have an admitted record (R103). -/
def admittedCount (s : State) : Nat :=
  (if s.episodes.writer.isSome then 1 else 0) + (if s.harmonic.writer.isSome then 1 else 0)

/-- The directory places occupied (R103). -/
def placesUsed (s : State) : Nat := s.store.dir.length + admittedCount s

/-- Whether a directory place is free. -/
def placeFree (s : State) : Bool := decide (placesUsed s < 1024)

/-- Whether an admitted record has not taken its id. -/
def lacksId : Option Admitted → Bool
  | some a => a.id.isNone
  | none => false

/-- Record ids that admitted records will still take. -/
def idsOwed (s : State) : Nat :=
  (if lacksId s.episodes.writer then 1 else 0) + (if lacksId s.harmonic.writer then 1 else 0)

/-- The last record id (R104). -/
def maxId : Nat := 4294967295

/-- Whether an id is left for one more entry, those owed to admitted records set aside (R104, log 19). -/
def idLeft (s : State) : Bool := decide (s.store.nextId + idsOwed s ≤ maxId)

/-- An entry removed: its pages are appended to the free-page list in chain order, its site's record count is
decremented and STORE_LOW is judged (R102, R105, R111). -/
def removeEntry (e : DirEntry) (s : State) : State :=
  followStoreLow (updateSite e.site SiteEntry.dropRecord
    (s.setStore { s.store with
      dir := s.store.dir.filter (fun d => d.id != e.id)
      free := s.store.free ++ e.chain }))

/-! ### Requests and reclaim (R103, R109) -/

/-- Whether a request for pages is allowed, for the pages kept back from it (R103). -/
def pagesAllowed (kept p : Nat) (s : State) : Bool := decide (p + kept ≤ freeCount s)

/-- The entry reclaim removes next: the oldest that is COMPLETE, not pinned and not held (R109). -/
def reclaimable (s : State) : Option DirEntry :=
  s.store.dir.find? (fun e => e.state == .complete && e.pins == 0 && e.holds == 0)

/-- One step of reclaim (R109). -/
def reclaimStep (e : DirEntry) (s : State) : State :=
  removeEntry e (s.setStore { s.store with reclaimed := bump s.store.reclaimed })

/-- A request judged, with reclaim until it is satisfied or no entry qualifies (R109). -/
def request (ok : State → Bool) : Nat → State → State × Bool
  | 0, s => (s, ok s)
  | n + 1, s =>
    if ok s then (s, true)
    else
      match reclaimable s with
      | none => (s, false)
      | some e => request ok n (reclaimStep e s)

/-- A request with as many reclaim steps as the directory has entries. -/
def requestAll (ok : State → Bool) (s : State) : State × Bool := request ok s.store.dir.length s

/-- A request for a directory place and then for pages (R106, R107). With no id left it is refused before any reclaim (R104,
log 48). -/
def requestRecord (kept p : Nat) (s : State) : State × Bool :=
  if idLeft s then
    match requestAll placeFree s with
    | (s1, false) => (s1, false)
    | (s1, true) => requestAll (pagesAllowed kept p) s1
  else (s, false)

/-- The pages on the free-page list that no write has claimed, in list order (R103). -/
def unclaimed (s : State) : List Nat := s.store.free.filter (fun p => !(claimed s).contains p)

/-- The first free page leaves the free-page list (R103). -/
def takePage (s : State) : State × Option Nat :=
  match unclaimed s with
  | [] => (s, none)
  | p :: _ => (s.setStore { s.store with free := s.store.free.erase p }, some p)

/-- A CAPTURE entry created in WRITING for a site (R106): the part after it and its record id, or none if the store
refuses it. -/
def createCapture (site : Nat) (s : State) : State × Option Nat :=
  match requestRecord 8 1 s with
  | (s1, false) => (s1, none)
  | (s1, true) =>
    match takePage s1 with
    | (s2, none) => (s2, none)
    | (s2, some p) =>
      let id := s2.store.nextId
      let e : DirEntry := ⟨id, .capture, site, .writing, [p], 64, s2.instant, s2.clock.seconds, 0, 0, 0⟩
      (followStoreLow (updateSite site SiteEntry.addRecord
        (s2.setStore { s2.store with dir := insertEntry e s2.store.dir, nextId := id + 1 })), some id)

/-- One more page for a capture's chain (R106): whether the store granted it. -/
def growCapture (id : Nat) (s : State) : State × Bool :=
  match requestAll (pagesAllowed 8 1) s with
  | (s1, false) => (s1, false)
  | (s1, true) =>
    match takePage s1 with
    | (s2, none) => (s2, false)
    | (s2, some p) => (followStoreLow (updateEntry id (fun e => { e with chain := e.chain ++ [p] }) s2), true)

/-- Pages of a record of a length (R107). -/
def pagesFor (length : Nat) : Nat := (length + 1023) / 1024

/-- Bursts of a record of a length (R107). -/
def burstsFor (length : Nat) : Nat := (length + 63) / 64

/-- A record of a site and length judged for admission (R107): the part after it and the pages it claims, in list
order, or none if the store refuses it. -/
def admission (kept site length : Nat) (s : State) : State × Option Admitted :=
  if (s.site site).isNone then (s, none)
  else
    match requestRecord kept (pagesFor length) s with
    | (s1, false) => (s1, none)
    | (s1, true) =>
      (updateSite site (fun e => { e with pending := e.pending + 1 }) s1,
        some ⟨(unclaimed s1).take (pagesFor length), 0, none⟩)

/-- An admitted record's entry, created COMPLETE at the end of its last burst (R108). The claimed pages leave the
free-page list from wherever they stand, and the site's pending count passes into its record count (R127). -/
def fileRecord (kind : RecordKind) (site length start : Nat) (flags : Byte) (a : Admitted) (id : Nat) (s : State) : State :=
  let e : DirEntry := ⟨id, kind, site, .complete, a.pages, length, start, s.clock.seconds, 0, 0, flags⟩
  updateSite site (fun x => { x.addRecord with pending := x.pending - 1 })
    (s.setStore { s.store with
      dir := insertEntry e s.store.dir
      free := s.store.free.filter (fun p => !a.pages.contains p) })

/-- The bytes of block `b` of a record. -/
def blockOf (bytes : List Byte) (b : Nat) : List Byte := (bytes.drop (64 * b)).take 64

/-- The block that a record's next burst writes: the second to the last in ascending order, and the first block last
(R107). -/
def nextBlock (length made : Nat) : Nat := if made + 1 < burstsFor length then made + 1 else 0

/-- The bytes of a record from its first to its length. -/
def entryBytes (s : State) (e : DirEntry) : List Byte := readRecord s.store.mem e.chain 0 e.length

end Sys2Proof.Machine
end

