-- ==== Sys2Proof/Machine/Capture.lean ====
section
/-! DEFINITION. The capture unit's operations: the ring, the staging buffer, the phases of a capture, and what it does
at the reports of the other blocks (R61 to R79). -/

namespace Sys2Proof.Machine

open Sys2Proof

/-! ### What a lane's close carries (R15, R18) -/

/-- A close as a lane delivers it: the boundary's number, its direction (none at a resync), its instant, the first
instant of the half-cycle, the lane's sums and marks, and the phase step of a RISING boundary's entry (R88). -/
structure LaneClose where
  number : Nat
  direction : Option Direction
  instant : Nat
  start : Nat
  sumSquares : Quad Nat
  dataCount : Quad Nat
  hTotal : Nat
  gap : Bool
  clip : Bool
  step : Option Nat
deriving DecidableEq, Repr

/-! ### Counting -/

/-- What an instant or entry is counted as (R78). -/
inductive CountKind where
  | pre
  | during
  | post
  | trend
deriving DecidableEq, Repr

/-- One of a kind. -/
def oneOf : CountKind → Counts
  | .pre => ⟨1, 0, 0, 0⟩
  | .during => ⟨0, 1, 0, 0⟩
  | .post => ⟨0, 0, 1, 0⟩
  | .trend => ⟨0, 0, 0, 1⟩

/-- Counts added kind by kind. -/
def Counts.add (a b : Counts) : Counts := ⟨a.pre + b.pre, a.during + b.during, a.post + b.post, a.trend + b.trend⟩

/-- Counts taken back kind by kind. -/
def Counts.sub (a b : Counts) : Counts := ⟨a.pre - b.pre, a.during - b.during, a.post - b.post, a.trend - b.trend⟩

/-- The instants counted. -/
def Counts.instants (a : Counts) : Nat := a.pre + a.during + a.post

/-- What entries were counted as, together. -/
def itemsCounts (items : List StagedItem) : Counts := items.foldl (fun a i => a.add i.counts) Counts.zero

/-! ### Staging (R64, R72) -/

/-- The held gap run (R63). -/
def CaptureSlot.heldRun (c : CaptureSlot) : Nat := c.held.instants

/-- The free bytes of the staging buffer, `busy` bytes of it being in the burst in progress. -/
def CaptureSlot.room (c : CaptureSlot) (busy : Nat) : Nat := 2048 - (itemsSize c.staging + busy)

/-- Waiting headers enter staging in order, as far as there is room for each (R64). -/
def flushHeaders (busy : Nat) : List SectionKind → CaptureSlot → CaptureSlot
  | [], c => { c with waiting := [] }
  | k :: rest, c =>
    if 4 ≤ c.room busy then flushHeaders busy rest { c with staging := c.staging ++ [⟨.header k, Counts.zero⟩] }
    else { c with waiting := k :: rest }

/-- The held gap run placed in staging as one gap run; the headers behind it come next (R64). -/
def CaptureSlot.placeRun (c : CaptureSlot) : CaptureSlot :=
  if c.heldRun = 0 then { c with runDue := false }
  else
    { c with
      staging := c.staging ++ [⟨.gapRun c.heldRun, c.held⟩]
      held := Counts.zero
      runDue := false
      waiting := c.behind
      behind := [] }

/-- Everything that waits at the head of staging enters it as far as there is room: the headers ahead of a closed gap
run, the run, and the headers behind it (R64). -/
def CaptureSlot.flush (c : CaptureSlot) (busy : Nat) : CaptureSlot :=
  let c1 := flushHeaders busy c.waiting c
  if c1.waiting.isEmpty && c1.runDue && decide (4 ≤ c1.room busy) then flushHeaders busy c1.placeRun.waiting c1.placeRun
  else c1

/-- A section opens with its header at its first entry (R64), behind a gap run that is still held (log 55). -/
def CaptureSlot.openSection (c : CaptureSlot) : CaptureSlot :=
  match c.headerDue with
  | some k =>
    if c.heldRun = 0 then { c with headerDue := none, waiting := c.waiting ++ [k] }
    else { c with headerDue := none, behind := c.behind ++ [k] }
  | none => c

/-- The held gap run is closed: it is placed if its four bytes are free, and stays held otherwise, growing until room
appears (R64). -/
def CaptureSlot.closeRun (c : CaptureSlot) (busy : Nat) : CaptureSlot :=
  ({ c with runDue := decide (c.heldRun ≠ 0) } : CaptureSlot).flush busy

/-- The entries of staging that `bytes` bytes hold, and those they do not. -/
def splitFit : Nat → List StagedItem → List StagedItem × List StagedItem
  | _, [] => ([], [])
  | bytes, i :: rest =>
    if itemSize i.item ≤ bytes then
      let r := splitFit (bytes - itemSize i.item) rest
      (i :: r.1, r.2)
    else ([], i :: rest)

/-- The capture takes TRUNCATED and enters CLOSING: of staging only what `bytes` bytes of the allocated pages hold is
kept, the held gap run is discarded, and what is discarded is not counted (R73). -/
def CaptureSlot.truncate (c : CaptureSlot) (bytes : Nat) : CaptureSlot :=
  let fit := splitFit bytes c.staging
  { c with
    phase := .closing
    staging := fit.1
    waiting := []
    behind := []
    held := Counts.zero
    runDue := false
    headerDue := none
    counts := (c.counts.sub (itemsCounts fit.2)).sub c.held
    flags := { c.flags with truncated := true } }

/-- A gap run of 65535 is closed, and ends the capture when it finds no room (R64, R73, log 18). -/
def CaptureSlot.judgeRun (c : CaptureSlot) (busy : Nat) : CaptureSlot :=
  if c.heldRun < 65535 then c
  else
    let c1 := c.closeRun busy
    if c1.heldRun = 0 then c1 else c.truncate 0

/-- A gap instant joins the held gap run and is counted (R64). -/
def CaptureSlot.joinRun (c : CaptureSlot) (k : CountKind) (busy : Nat) : CaptureSlot :=
  ({ c with held := c.held.add (oneOf k), counts := c.counts.add (oneOf k) } : CaptureSlot).judgeRun busy

/-- A gap instant taken (R64, R67, R69). -/
def CaptureSlot.takeGap (c : CaptureSlot) (k : CountKind) (busy : Nat) : CaptureSlot := (c.openSection.flush busy).joinRun k busy

/-- Whether nothing waits ahead of the next entry but a held gap run that the entry itself closes. -/
def CaptureSlot.unblocked (c : CaptureSlot) : Bool := c.waiting.isEmpty && c.behind.isEmpty

/-- Whether a set has room: nothing waits ahead of it, and its eight bytes are free beside those of the held gap run
that it closes (R64, R72, log 16). -/
def CaptureSlot.setFits (c : CaptureSlot) (busy : Nat) : Bool :=
  c.unblocked && decide (8 + (if c.heldRun = 0 then 0 else 4) ≤ c.room busy)

/-- A set placed in staging behind the held gap run, which it closes (R67). -/
def CaptureSlot.putSet (c : CaptureSlot) (k : CountKind) (x : SampleSet) : CaptureSlot :=
  let c1 := c.placeRun
  { c1 with staging := c1.staging ++ [⟨.set x, oneOf k⟩], counts := c1.counts.add (oneOf k) }

/-- A set handed to a capture in DURING or POST: placed, or dropped for a gap instant with SKIPPED when there is no room
(R67, R69, R72). A set that is dropped is not taken and closes no gap run: the run goes on growing with it (R64, log 16). -/
def CaptureSlot.takeSet (c : CaptureSlot) (k : CountKind) (x : SampleSet) (busy : Nat) : CaptureSlot :=
  let c1 := c.openSection.flush busy
  if c1.setFits busy then c1.putSet k x
  else ({ c1 with flags := { c1.flags with skipped := true } } : CaptureSlot).joinRun k busy

/-- A trend entry placed, or dropped with SKIPPED when fewer than 12 bytes are free (R68, R72). -/
def CaptureSlot.takeTrend (c : CaptureSlot) (t : TrendEntry) (busy : Nat) : CaptureSlot :=
  let c1 := c.openSection.flush busy
  if c1.unblocked && c1.heldRun == 0 && decide (12 ≤ c1.room busy) then
    { c1 with staging := c1.staging ++ [⟨.trend t, oneOf .trend⟩], counts := c1.counts.add (oneOf .trend) }
  else { c1 with flags := { c1.flags with skipped := true } }

/-- The section changes: the held gap run is closed, and the next entry opens a section of a kind (R64). -/
def CaptureSlot.changeSection (c : CaptureSlot) (k : SectionKind) (busy : Nat) : CaptureSlot :=
  { c.closeRun busy with headerDue := some k }

/-- The capture enters CLOSING: it closes its held gap run and takes nothing more (R75). -/
def CaptureSlot.enterClosing (c : CaptureSlot) (busy : Nat) : CaptureSlot :=
  { c.closeRun busy with phase := .closing, headerDue := none }

/-- Whether a capture is in a phase that takes entries. -/
def CaptureSlot.taking (c : CaptureSlot) : Bool :=
  match c.phase with
  | .pre => true
  | .during => true
  | .trend => true
  | .post => true
  | .idle => false
  | .closing => false

/-! ### The ring (R62) -/

/-- The places of the ring. -/
def CaptureSlot.ringSize (c : CaptureSlot) : Nat := c.entry.pre * 128

/-- The place after a place of the ring. -/
def CaptureSlot.place (c : CaptureSlot) (p : Nat) : Nat := if p + 1 < c.ringSize then p + 1 else 0

/-- The place of the oldest entry. -/
def CaptureSlot.oldest (c : CaptureSlot) : Nat := if c.ring.length < c.ringSize then 0 else c.ringWrite

/-- An instant written at the write position (R62). -/
def CaptureSlot.writeRing (c : CaptureSlot) (x : Option SampleSet) : CaptureSlot :=
  { c with
    ring := if c.ring.length < c.ringSize then c.ring ++ [x] else c.ring.set c.ringWrite x
    ringWrite := c.place c.ringWrite }

/-- The ring emptied (R62). -/
def CaptureSlot.emptyRing (c : CaptureSlot) : CaptureSlot := { c with ring := [], ringWrite := 0 }

/-! ### PRE (R66, R69) -/

/-- The next instant PRE takes, once the capture has a first instant: every instant taken so far is counted. -/
def CaptureSlot.preNext (c : CaptureSlot) : Option Nat := c.first.map (· + c.counts.instants)

/-- Whether PRE has nothing more to take: it has caught up with the lane, whose next instant is `position`, or it has
passed the instant beyond which it takes nothing (R66). -/
def CaptureSlot.preDone (c : CaptureSlot) (position : Nat) : Bool :=
  match c.preNext with
  | none => true
  | some n => decide (position ≤ n) || (match c.preLimit with | some l => decide (l < n) | none => false)

/-- PRE ends: into CLOSING, POST, TREND or DURING as R66, R69 and R76 state. -/
def CaptureSlot.endPre (c : CaptureSlot) (busy : Nat) : CaptureSlot :=
  if c.flags.manual then
    if c.remaining = 0 then c.enterClosing busy else { c with phase := .during, preLimit := none }
  else if c.episodesClosed then
    if c.remaining = 0 then c.enterClosing busy
    else ({ c with phase := .post, preLimit := none } : CaptureSlot).changeSection .post busy
  else if c.halfCycles < 128 then { c with phase := .during, preLimit := none }
  else ({ c with phase := .trend, preLimit := none } : CaptureSlot).changeSection .trend busy

/-- A capture in PRE that has nothing more to take ends PRE. -/
def CaptureSlot.settlePre (c : CaptureSlot) (position busy : Nat) : CaptureSlot :=
  if c.phase = .pre ∧ c.preDone position then c.endPre busy else c

/-- What the next ring entry PRE takes is counted as: a pre entry while any of the start is unread (R66). -/
def CaptureSlot.preKind (c : CaptureSlot) : CountKind := if c.preUnread = 0 then .during else .pre

/-- The read position moved past an entry taken or lost. -/
def CaptureSlot.advanceRead (c : CaptureSlot) : CaptureSlot :=
  { c with readPos := c.place c.readPos, preUnread := c.preUnread - 1 }

/-- PRE moves the next ring entry into staging when staging has room for it, and ends when it has caught up (R66). -/
def CaptureSlot.readPre (c : CaptureSlot) (position busy : Nat) : CaptureSlot :=
  if c.phase = .pre then
    if c.preDone position then c.endPre busy
    else
      match c.ring[c.readPos]? with
      | none => c
      | some none => (c.advanceRead.takeGap c.preKind busy).settlePre position busy
      | some (some x) =>
        let c1 := c.openSection.flush busy
        if c1.setFits busy then (c1.advanceRead.putSet c.preKind x).settlePre position busy else c
  else c

/-- The entry at the read position is lost to a capture in PRE when the lane writes into its place: PRE takes a gap
instant for it, and the capture takes SKIPPED (R66). -/
def CaptureSlot.losePre (c : CaptureSlot) (n busy : Nat) : CaptureSlot :=
  if c.phase = .pre ∧ c.preDone n = false ∧ c.ring.length = c.ringSize ∧ c.readPos = c.ringWrite then
    (({ c with flags := { c.flags with skipped := true } } : CaptureSlot).advanceRead.takeGap c.preKind busy)
  else c

/-- The first instant of a capture that started with an empty ring is the first the lane processes (R65). -/
def CaptureSlot.noteFirst (c : CaptureSlot) (n : Nat) : CaptureSlot :=
  if c.taking ∧ c.flags.lean = false ∧ c.first.isNone then { c with first := some n, readPos := c.ringWrite } else c

/-- An instant the lane hands to the capture unit: written into the ring, and taken by a capture in DURING or POST
(step 1 of R15, R62, R66, R67, R69). A LEAN capture takes no instants (R77). -/
def CaptureSlot.takeInstant (c : CaptureSlot) (n : Nat) (x : Option SampleSet) (busy : Nat) : CaptureSlot :=
  let c1 := ((c.losePre n busy).noteFirst n).writeRing x
  let put (k : CountKind) : CaptureSlot :=
    match x with
    | some y => c1.takeSet k y busy
    | none => c1.takeGap k busy
  if c1.flags.lean then c1
  else
    match c1.phase with
    | .during => put .during
    | .post => put .post
    | .pre => if (match c1.preLimit with | some _ => c1.preDone (n + 1) | none => false) then c1.endPre busy else c1
    | .idle => c1
    | .trend => c1
    | .closing => c1

/-! ### Closes (R66 to R69, R76, R77) -/

/-- The remaining count decremented at a close. -/
def CaptureSlot.countDown (c : CaptureSlot) : CaptureSlot := { c with remaining := c.remaining - 1 }

/-- The capture enters CLOSING if its remaining count has reached 0. -/
def CaptureSlot.closeIfDone (c : CaptureSlot) (busy : Nat) : CaptureSlot :=
  if c.remaining = 0 then c.enterClosing busy else c

/-- PRE is to take nothing beyond an instant; an earlier such instant stands. Log 26. -/
def CaptureSlot.limitPre (c : CaptureSlot) (n : Nat) : CaptureSlot :=
  match c.preLimit with
  | some _ => c
  | none => { c with preLimit := some n }

/-- A close counted in the waveform half-cycles (R66, R67). -/
def CaptureSlot.countHalf (c : CaptureSlot) : CaptureSlot :=
  { c with halfCycles := if c.halfCycles < 128 then c.halfCycles + 1 else c.halfCycles }

/-- A close counted by a capture in PRE (R66, R69, R76): in the waveform half-cycles unless its episodes have closed, and
in the remaining count of a forced capture or one whose episodes have closed. -/
def CaptureSlot.closePre (c : CaptureSlot) (n : Nat) : CaptureSlot :=
  let c1 := if c.episodesClosed then c else c.countHalf
  if c.flags.manual ∨ c.episodesClosed then
    let c2 := c1.countDown
    if c2.remaining = 0 then c2.limitPre n else c2
  else if c1.halfCycles = 128 then c1.limitPre n
  else c1

/-- A close counted by a capture in DURING (R67, R76). -/
def CaptureSlot.closeDuring (c : CaptureSlot) (busy : Nat) : CaptureSlot :=
  let c1 := c.countHalf
  if c1.flags.manual then c1.countDown.closeIfDone busy
  else if c1.halfCycles < 128 then c1
  else ({ c1 with phase := .trend } : CaptureSlot).changeSection .trend busy

/-- The trend entry of a close (R68). -/
def trendOf (k : LaneClose) (codes : Quad (Option Nat)) : TrendEntry := ⟨k.number, k.hTotal, k.gap, k.clip, codes⟩

/-- A close of the slot taken by its capture, with the RMS codes of the four channels. `position` is the lane's next
instant. -/
def CaptureSlot.takeClose (c : CaptureSlot) (k : LaneClose) (codes : Quad (Option Nat)) (position busy : Nat) : CaptureSlot :=
  match c.phase with
  | .idle => c
  | .closing => c
  | .pre =>
    let c1 := c.closePre k.instant
    if c1.preLimit.isSome then c1.settlePre position busy else c1
  | .during => c.closeDuring busy
  | .trend =>
    let c1 := c.takeTrend (trendOf k codes) busy
    if c1.flags.manual then c1.countDown.closeIfDone busy else c1
  | .post =>
    let c1 := if c.flags.lean then c.takeTrend (trendOf k codes) busy else c
    c1.countDown.closeIfDone busy

/-! ### Starting (R65, R76, R77) -/

/-- The bytes of a slot's staging that the burst in progress moves. -/
def busyBytes (s : State) (i : Slot) : Nat :=
  match s.store.burst with
  | some (.captureItems j items) => if j = i then itemsSize items else 0
  | _ => 0

/-- The capture slot of a capture that starts: LEAN in TREND, or in PRE with the ring as it stands, whose oldest entry is the
first that PRE reads (R65, R77). A forced capture's remaining count is 2n (R76). -/
def CaptureSlot.begin (c : CaptureSlot) (id site : Nat) (kinds : Quad Kind) (episode : Option Nat) (forced : Option Nat)
    (lean : Bool) (lane : Option Lane) : CaptureSlot :=
  { c with
    phase := if lean then .trend else .pre
    recordId := some id
    site := site
    episodes := episode.toList
    kinds := kinds
    first :=
      match lane with
      | none => none
      | some l => if lean then some l.halfStart else if c.ring.isEmpty then none else some (l.position - c.ring.length)
    halfCycles := 0
    remaining := match forced with | some n => 2 * n | none => 0
    preUnread := if lean then 0 else c.ring.length
    readPos := if lean then 0 else c.oldest
    counts := Counts.zero
    held := Counts.zero
    runDue := false
    headerDue := some (if lean then .trend else .waveform)
    waiting := []
    behind := []
    staging := []
    flags := { CaptureFlags.clear with lean := lean, manual := forced.isSome }
    preLimit := none
    episodesClosed := false }

/-- A capture starts on an IDLE slot if the store creates its entry (R65): the part after it and the record id, or none.
LEAN is judged once the entry stands. -/
def startCapture (i : Slot) (site : Nat) (episode forced : Option Nat) (s : State) : State × Option Nat :=
  match createCapture site s with
  | (s1, none) => (s1, none)
  | (s1, some id) =>
    (s1.setCap i ((s1.cap i).begin id site (s1.slot i).kinds episode forced (storeLow s1) (s1.slot i).lane), some id)

/-- A capture's record id added to the open episode's capture ids (R49, R65, R70, R71). -/
def addCaptureId (id : Nat) (s : State) : State :=
  match s.episodes.current with
  | some e => s.setEpisodes { s.episodes with current := some { e with captureIds := e.captureIds ++ [id] } }
  | none => s

/-- NO_CAPTURE set on the open episode (R65). -/
def setNoCapture (s : State) : State :=
  match s.episodes.current with
  | some e => s.setEpisodes { s.episodes with current := some { e with flags := { e.flags with noCapture := true } } }
  | none => s

/-- A capture starts for an episode of a site, or NO_CAPTURE is set (R65). -/
def startForEpisode (i : Slot) (site number : Nat) (s : State) : State :=
  match startCapture i site (some number) none s with
  | (s1, none) => setNoCapture s1
  | (s1, some id) => addCaptureId id s1

/-! ### Reports of the episode unit (R65, R69 to R71) -/

/-- The capture's episode list, section and phase after it joins an episode (R70). -/
def CaptureSlot.joined (c : CaptureSlot) (number busy : Nat) : CaptureSlot :=
  let c1 : CaptureSlot :=
    { c with episodes := c.episodes ++ [number], remaining := 0, flags := { c.flags with joined := true } }
  match c1.phase with
  | .pre => { c1 with episodesClosed := false, preLimit := if c1.halfCycles < 128 then none else c1.preLimit }
  | _ =>
    if c1.flags.lean then { c1 with phase := .trend }
    else if c1.halfCycles < 128 then ({ c1 with phase := .during } : CaptureSlot).changeSection .waveform busy
    else ({ c1 with phase := .trend } : CaptureSlot).changeSection .trend busy

/-- An episode opens while the slot's capture settles: the capture joins it, or closes with the episode pending when its
list holds 4 (R70). -/
def joinEpisode (i : Slot) (number : Nat) (s : State) : State :=
  let c := s.cap i
  if c.episodes.length < 4 then
    let s1 := s.setCap i (c.joined number (busyBytes s i))
    match c.recordId with
    | some id => addCaptureId id s1
    | none => s1
  else s.setCap i { c.enterClosing (busyBytes s i) with pending := some number }

/-- An episode has opened: what the capture unit does on one slot (R65). -/
def episodeOpenedOn (site number : Nat) (s : State) (i : Slot) : State :=
  let c := s.cap i
  if s.isActive i && c.entry.enabled then
    match c.phase with
    | .idle => startForEpisode i site number s
    | .closing => s.setCap i { c with pending := some number }
    | .pre =>
      if c.flags.manual then s.setCap i { c with pending := some number }
      else if c.episodesClosed then joinEpisode i number s
      else s
    | .post => joinEpisode i number s
    | .during => if c.flags.manual then s.setCap i { c with pending := some number } else s
    | .trend => if c.flags.manual then s.setCap i { c with pending := some number } else s
  else s

/-- The capture unit is told that an episode has opened: slots 0 to 3 in order (R65). -/
def episodeOpened (site number : Nat) (s : State) : State := indexes.foldl (episodeOpenedOn site number) s

/-- A capture that serves a closing episode turns to its settling waveform (R69). -/
def CaptureSlot.episodeClosed (c : CaptureSlot) (number busy : Nat) : CaptureSlot :=
  if c.episodes.contains number then
    let c1 : CaptureSlot := { c with remaining := c.entry.post * 2 }
    let toPost : CaptureSlot :=
      if c1.flags.lean then { c1 with phase := .post }
      else ({ c1 with phase := .post } : CaptureSlot).changeSection .post busy
    match c.phase with
    | .during => toPost
    | .trend => toPost
    | .pre => { c1 with episodesClosed := true }
    | .idle => c
    | .post => c
    | .closing => c
  else c

/-- The capture unit is told that an episode has closed (R69). -/
def episodeClosed (number : Nat) (s : State) : State :=
  indexes.foldl (fun s i => s.setCap i ((s.cap i).episodeClosed number (busyBytes s i))) s

/-- A split offered to one slot (R71). -/
def splitOn (old new : Nat) (s : State) (i : Slot) : State :=
  let c := s.cap i
  if c.episodes.contains old ∧ c.phase ≠ .idle then
    if c.phase = .closing then s.setCap i { c with pending := some new }
    else if c.episodes.length < 4 then
      let s1 := s.setCap i { c with episodes := c.episodes ++ [new] }
      match c.recordId with
      | some id => addCaptureId id s1
      | none => s1
    else s.setCap i { c.enterClosing (busyBytes s i) with pending := some new }
  else if c.pending = some old then s.setCap i { c with pending := some new }
  else s

/-- The capture unit is told of a split (R71). -/
def episodeSplit (old new : Nat) (s : State) : State := indexes.foldl (splitOn old new) s

/-! ### Pod loss, site close and completion (R74, R75) -/

/-- The session end of the capture's slot (R74). -/
def CaptureSlot.podLost (c : CaptureSlot) (busy : Nat) : CaptureSlot :=
  let c1 := if c.taking then ({ c with flags := { c.flags with podLost := true } } : CaptureSlot).enterClosing busy else c
  { c1.emptyRing with pending := none }

/-- SITE_CLOSE (R74). -/
def CaptureSlot.siteCut (c : CaptureSlot) (busy : Nat) : CaptureSlot :=
  let c1 := if c.taking then ({ c with flags := { c.flags with cut := true } } : CaptureSlot).enterClosing busy else c
  { c1 with pending := none }

/-- Every capture cut at SITE_CLOSE (R74). -/
def cutCaptures (s : State) : State :=
  indexes.foldl (fun s i => s.setCap i ((s.cap i).siteCut (busyBytes s i))) s

/-- The capture slot back in IDLE: every field but the pending episode at its power-on value; the ring and the table
entry are no fields of it (R75). -/
def CaptureSlot.toIdle (c : CaptureSlot) : CaptureSlot :=
  { CaptureSlot.reset with entry := c.entry, ring := c.ring, ringWrite := c.ringWrite, pending := c.pending }

/-- A slot in ENDING whose capture slot is IDLE becomes EMPTY, and the session event record is written with ENDED
(R8). -/
def endingToEmpty (i : Slot) (s : State) : State :=
  let p := s.slot i
  if p.phase = .ending ∧ (s.cap i).phase = .idle then
    let s1 := s.setSlot i { p with phase := .empty, serial := 0, kinds := Quad.fill .none, debounceCount := 0, endReason := none }
    raise 6 (s1.setSession { s1.session with event := some ⟨some i, p.serial, .ended p.endReason⟩ })
  else s

/-- A pending episode resolved as the slot's capture completes (step 4 of R75). -/
def resolvePending (i : Slot) (s : State) : State :=
  let c := s.cap i
  match c.pending with
  | none => s
  | some number =>
    let s1 := s.setCap i { c with pending := none }
    match s.openSite, s.episodes.current with
    | some site, some e =>
      if s.isActive i && c.entry.enabled && e.number == number then startForEpisode i site.id number s1 else s1
    | _, _ => s1

/-- The first instant of a completed record: none when the capture took no entry (R106, R206), or none is left of those it
took (log 53). -/
def CaptureSlot.finalFirst (c : CaptureSlot) : Option Nat :=
  if c.counts.instants + c.counts.trend = 0 then none else c.first

/-- A capture completes at the end of its header burst (R75, R106): the header is in place, the entry COMPLETE, the slot
back in IDLE. -/
def completeCapture (i : Slot) (s : State) : State :=
  let c := { s.cap i with first := (s.cap i).finalFirst }
  match c.recordId with
  | none => s
  | some id =>
    match s.entry id with
    | none => s
    | some e =>
      let s1 := s.setStore { s.store with mem := writeRecord s.store.mem e.chain 0 (captureHeaderBytes i c id e.length) }
      let s2 := updateEntry id (fun d =>
        { d with state := .complete, flags := c.flags.pack, start := c.first.getD d.start }) s1
      let s3 := raise 2 s2
      let s4 := s3.setCap i c.toIdle
      resolvePending i (endingToEmpty i s4)

/-- A closed gap run, or a header that waits, placed once there is room (R64); a run of 65535 without room ends the
capture (R73). -/
def CaptureSlot.placeHeld (c : CaptureSlot) (busy : Nat) : CaptureSlot :=
  let c1 := c.flush busy
  if c1.taking then c1.judgeRun busy else c1

end Sys2Proof.Machine
end

