-- ==== Sys2Proof/Machine/Detector.lean ====
section
/-! DEFINITION. The RMS code and the channel event machine (R38 to R47). -/

namespace Sys2Proof.Machine

open Sys2Proof

/-! ### The RMS code (R38) -/

/-- The RMS code of an ungapped close: isqrt(floor(S / H)). -/
def rmsCode (sum count : Nat) : Nat := isqrt (sum / count)

/-- The four RMS codes of a close; none for a gapped one. -/
def rmsCodes (k : LaneClose) : Quad (Option Nat) :=
  if k.gap then Quad.fill none else Quad.zip (fun s h => some (rmsCode s h)) k.sumSquares k.dataCount

/-- An RMS code in permille of Nc, clamped to 0..65535 (R44, R46). With Nc 0 the value is free (log 15). -/
def permilleOf (r nc : Nat) : Nat := clamp 65535 (if nc = 0 then Config.permilleOverZero r else r * 1000 / nc)

/-! ### The event machine -/

/-- What became of a channel at a close (step 4 of R39): an event opened, or one closed with whether it was listed. -/
inductive ChannelOutcome where
  | nothing
  | opened (e : EventEntry)
  | closed (e : EventEntry) (listed : Bool)
deriving DecidableEq, Repr

/-- The state and kind a channel in NORMAL opens an event in, for an RMS code and the entry in force (R44). -/
def judgeNormal (t : ThresholdEntry) (r : Nat) : Option (EventState × EventKind) :=
  if r * 1000 < t.nc * t.ti then some (.interrupted, .interruption)
  else if r * 1000 < t.nc * t.ts then some (.dip, .dip)
  else if t.nc * t.tw < r * 1000 then some (.swell, .swell)
  else none

/-- The event a channel in NORMAL opens at a close (R44). -/
def openEvent (c : Chan) (k : LaneClose) (t : ThresholdEntry) (kind : EventKind) (r : Nat) : EventEntry :=
  ⟨c, kind, k.start, k.instant, 1, r, permilleOf r t.nc, { EventFlags.clear with clipped := k.clip }⟩

/-- The state after an ungapped close for a channel not in NORMAL (R45). -/
def judgeEvent (t : ThresholdEntry) (st : EventState) (r : Nat) : EventState :=
  match st with
  | .dip =>
    if r * 1000 < t.nc * t.ti then .interrupted else if t.nc * (t.ts + t.hy) ≤ r * 1000 then .normal else .dip
  | .interrupted =>
    if t.nc * (t.ts + t.hy) ≤ r * 1000 then .normal
    else if t.nc * (t.ti + t.hy) ≤ r * 1000 then .dip
    else .interrupted
  | .swell => if r * 1000 ≤ t.nc * (t.tw - t.hy) then .normal else .swell
  | .normal => .normal

/-- An event's kind as its state moves: a DIP that becomes INTERRUPTED is an INTERRUPTION for its whole life (R45). -/
def kindAfter (st : EventState) (kind : EventKind) : EventKind := if st = .interrupted then .interruption else kind

/-- Whether an RMS code replaces the extreme of an event of a kind (R46). -/
def replacesExtreme (kind : EventKind) (r extreme : Nat) : Bool :=
  match kind with
  | .swell => decide (extreme < r)
  | .dip => decide (r < extreme)
  | .interruption => decide (r < extreme)

/-- The extreme of an event after an ungapped close (step 3 of R46). -/
def takeExtreme (nc r : Nat) (e : EventEntry) : EventEntry :=
  if replacesExtreme e.kind r e.extreme then { e with extreme := r, permille := permilleOf r nc } else e

/-- A close counted in an event (R46). -/
def countClose (k : LaneClose) (nc : Nat) (code : Option Nat) (e : EventEntry) : EventEntry :=
  let e1 : EventEntry :=
    { e with
      halfCycles := if e.halfCycles < 6000 then e.halfCycles + 1 else e.halfCycles
      stop := k.instant
      flags := { e.flags with gapped := e.flags.gapped || k.gap, clipped := e.flags.clipped || k.clip } }
  match code with
  | some r => takeExtreme nc r e1
  | none => e1

/-- A channel whose event has closed: NORMAL, with no open event (R47). -/
def ChannelState.toNormal (c : ChannelState) : ChannelState := { c with state := .normal, event := none, listed := false }

/-- A staged entry takes effect (R42): the channel after it, and whether one did. RETHRESHOLD is set on an open event
whose thresholds change under watch yes. -/
def ChannelState.applyStaged (c : ChannelState) : ChannelState × Bool :=
  match c.staged with
  | none => (c, false)
  | some t =>
    let flagged := c.event.map (fun e =>
      if t.watch ∧ t ≠ c.inForce then { e with flags := { e.flags with rethreshold := true } } else e)
    ({ c with inForce := t, staged := none, pendingUnwatched := false, event := flagged }, true)

/-- The event machine run on a close (R43 to R47). -/
def runMachine (ch : Chan) (k : LaneClose) (code : Option Nat) (c : ChannelState) : ChannelState × ChannelOutcome :=
  match c.event with
  | none =>
    match code with
    | none => (c, .nothing)
    | some r =>
      match judgeNormal c.inForce r with
      | none => (c, .nothing)
      | some (st, kind) =>
        let e := openEvent ch k c.inForce kind r
        ({ c with state := st, event := some e }, .opened e)
  | some e =>
    if c.inForce.watch = false then
      let e1 := countClose k c.inForce.nc code e
      (c.toNormal, .closed { e1 with flags := { e1.flags with unwatched := true } } c.listed)
    else
      match code with
      | none => ({ c with event := some (countClose k c.inForce.nc code e) }, .nothing)
      | some r =>
        let st := judgeEvent c.inForce c.state r
        if st = .normal then (c.toNormal, .closed e c.listed)
        else
          let e1 : EventEntry := { e with kind := kindAfter st e.kind }
          ({ c with state := st, event := some (countClose k c.inForce.nc code e1) }, .nothing)

/-- A channel at a close of its lane, steps 1 to 4 of R39: the channel after it, its outcome, and whether a THRESHOLD
entry took effect. `live` says that a site is OPEN, the slot ACTIVE and the channel a VOLTAGE one (R43). -/
def takeChannel (ch : Chan) (live : Bool) (k : LaneClose) (code : Option Nat) (c : ChannelState) :
    ChannelState × ChannelOutcome × Bool :=
  let a := c.applyStaged
  let c1 : ChannelState := { a.1 with held := match code with | some r => some r | none => a.1.held }
  if (live && c1.inForce.watch) || c1.event.isSome then
    let m := runMachine ch k code c1
    (m.1, m.2, a.2)
  else (c1, .nothing, a.2)

/-- The checks of a THRESHOLD entry (R40). -/
def thresholdOk (t : ThresholdEntry) : Bool :=
  decide (t.nc ≤ 32767) && decide (100 ≤ t.ts ∧ t.ts ≤ 999) && decide (10 ≤ t.ti ∧ t.ti + 1 ≤ t.ts) &&
    decide (1001 ≤ t.tw ∧ t.tw ≤ 2000) && decide (t.hy ≤ 100) && decide (t.ts + t.hy ≤ 1000) &&
    decide (1000 + t.hy ≤ t.tw) && decide (t.ti + t.hy ≤ t.ts) && (!t.watch || decide (1 ≤ t.nc))

/-- A THRESHOLD entry that passed its checks, for a channel (R41): staged for an ACTIVE slot, in force at once
otherwise. -/
def ChannelState.load (t : ThresholdEntry) (active : Bool) (c : ChannelState) : ChannelState :=
  if active then { c with staged := some t, pendingUnwatched := !t.watch && c.event.isSome }
  else { c.toNormal with inForce := t, staged := none, pendingUnwatched := false }

end Sys2Proof.Machine
end

