-- ==== Sys2Proof/Machine/Episode.lean ====
section
/-! DEFINITION. The episode unit: opening, collecting, closing, splitting and cutting episodes (R49 to R58). -/

namespace Sys2Proof.Machine

open Sys2Proof

/-! ### The record (R53) -/

/-- The worse of two listed events: the one whose extreme permille lies farther from 1000, the earlier of two equally
far. -/
def worse (a b : EventEntry) : EventEntry := if distance a.permille 1000 < distance b.permille 1000 then b else a

/-- The EPISODE record of an episode that closes (R53). -/
def buildEpisode (e : Episode) : EpisodeRecord :=
  let events := e.events.map (fun x => x.1)
  let first := events.headD ⟨0, .dip, 0, 0, 0, 0, 0, EventFlags.clear⟩
  let worst := events.tail.foldl worse first
  { site := e.site
    number := e.number
    start := events.tail.foldl (fun n x => min n x.start) first.start
    stop := events.foldl (fun n x => max n x.stop) 0
    seconds := e.seconds
    worst := worst.chan
    worstPermille := worst.permille
    events := events
    dropped := e.dropped
    captureIds := e.captureIds
    flags := e.flags }

/-- A built record placed in the outbox of 4, or counted as lost (R54). -/
def outboxEpisode (r : EpisodeRecord) (u : EpisodeUnit) : EpisodeUnit :=
  if u.outbox.length < 4 then { u with outbox := u.outbox ++ [r] } else { u with lost := bump u.lost }

/-- The open episode built into its record, which goes to the outbox (R53, R54). -/
def fileEpisode (e : Episode) (s : State) : State := s.setEpisodes (outboxEpisode (buildEpisode e) s.episodes)

/-- No episode is open. -/
def noEpisode (s : State) : State := s.setEpisodes { s.episodes with current := none }

/-- The open episode closes (R53): its record is built, the capture unit is told, EPISODE_CLOSE is raised. -/
def closeEpisode (s : State) : State :=
  match s.episodes.current with
  | none => s
  | some e => noEpisode (raise 1 (episodeClosed e.number (fileEpisode e s)))

/-! ### Collecting and counting out (R51, R52) -/

/-- An opened event collected into an episode: listed if the list holds fewer than 32, else counted as dropped (R51). -/
def Episode.collect (e : Episode) (ev : EventEntry) : Episode :=
  if e.events.length < 32 then { e with events := e.events ++ [(ev, true)], openChannels := e.openChannels ++ [ev.chan] }
  else
    { e with
      dropped := if e.dropped < 65535 then e.dropped + 1 else e.dropped
      openChannels := e.openChannels ++ [ev.chan] }

/-- An opened event collected into the open episode, and marked listed if it has a place (R51). -/
def collectEvent (s : State) (ev : EventEntry) : State :=
  match s.episodes.current with
  | none => s
  | some e =>
    (s.setEpisodes { s.episodes with current := some (e.collect ev) }).setChan ev.chan
      { s.chan ev.chan with listed := decide (e.events.length < 32) }

/-- An event that closes counted out of an episode; a listed one leaves its final values in its place (R47, R52). -/
def Episode.countOut (e : Episode) (ev : EventEntry) (listed : Bool) : Episode :=
  { e with
    events := if listed then e.events.map (fun x => if x.2 ∧ x.1.chan = ev.chan then (ev, false) else x) else e.events
    openChannels := e.openChannels.filter (fun c => c != ev.chan) }

/-- An event that closes counted out of the open episode. -/
def countOut (ev : EventEntry) (listed : Bool) (s : State) : State :=
  match s.episodes.current with
  | none => s
  | some e => s.setEpisodes { s.episodes with current := some (e.countOut ev listed) }

/-- The open episode closes when its open count has fallen to 0 (R52). -/
def closeIfEmpty (s : State) : State :=
  match s.episodes.current with
  | none => s
  | some e => if e.openChannels.isEmpty then closeEpisode s else s

/-- An open event of a channel closes outside a lane's close, with flags set, and its channel returns to NORMAL (R47). -/
def closeEventOf (f : EventFlags → EventFlags) (s : State) (c : Chan) : State :=
  match (s.chan c).event with
  | none => s
  | some e =>
    countOut { e with flags := f e.flags } (s.chan c).listed (s.setChan c (s.chan c).toNormal)

/-! ### Opening (R50) -/

/-- A new episode of a site, numbered from it. -/
def newEpisode (site : SiteEntry) (first seconds : Nat) (flags : EpisodeFlags) : Episode :=
  ⟨site.id, site.nextEpisode, first, seconds, [], 0, [], [], flags⟩

/-- The number taken from the site and the episode opened, with no event yet (steps 1 and 2 of R50, R128). -/
def installEpisode (site : SiteEntry) (first : Nat) (flags : EpisodeFlags) (s : State) : State :=
  updateSite site.id (fun x => { x with nextEpisode := nextSiteNumber x.nextEpisode })
    (s.setEpisodes { s.episodes with current := some (newEpisode site first s.clock.seconds flags) })

/-- An episode opens with the events of a close (R50). -/
def openEpisode (number : Nat) (events : List EventEntry) (s : State) : State :=
  match s.openSite with
  | none => s
  | some site =>
    let s1 := events.foldl collectEvent (installEpisode site number EpisodeFlags.clear s)
    raise 0 (episodeOpened site.id site.nextEpisode s1)

/-! ### Splitting (R56) -/

/-- The event that carries an open event over a split (step 4 of R56): it starts where the channel's lane stands. -/
def carryEvent (s : State) (e : EventEntry) : EventEntry :=
  let start := match (s.slot e.chan.slot).lane with | some l => l.halfStart | none => e.stop + 1
  { e with start := start, stop := start - 1, halfCycles := 0, flags := { EventFlags.clear with continuation := true } }

/-- A carried event opened again in the new episode, its channel in the state it held (step 4 of R56, log 66). -/
def reopen (s : State) (x : EventEntry × EventState) : State :=
  let e := carryEvent s x.1
  collectEvent (s.setChan e.chan { s.chan e.chan with state := x.2, event := some e }) e

/-- The open events that belong to an episode with their channels' states, in the order they have in it. -/
def openEvents (s : State) (e : Episode) : List (EventEntry × EventState) :=
  e.openChannels.filterMap (fun c => (s.chan c).event.map (fun ev => (ev, (s.chan c).state)))

/-- An open episode is split at a close numbered `number` (R56). The capture unit is told of the split alone (log 17). -/
def splitEpisode (number : Nat) (s : State) : State :=
  match s.episodes.current, s.openSite with
  | some e, some site =>
    let carried := openEvents s e
    let s1 := e.openChannels.foldl (closeEventOf id) s
    let s2 :=
      match s1.episodes.current with
      | some x => noEpisode (raise 1 (fileEpisode { x with flags := { x.flags with continues := true } } s1))
      | none => s1
    let s3 := installEpisode site (number + 1) { EpisodeFlags.clear with continuation := true } s2
    raise 0 (episodeSplit e.number site.nextEpisode (carried.foldl reopen s3))
  | _, _ => s

/-- The split judged after a close's own events (R56). -/
def splitIfDue (number : Nat) (s : State) : State :=
  match s.episodes.current with
  | none => s
  | some e => if e.firstBoundary + 5999 ≤ number then splitEpisode number s else s

/-! ### A lane's close and a session end (R39, R48, R50 to R52) -/

/-- The events a close opened. -/
def openedOf (outs : List ChannelOutcome) : List EventEntry :=
  outs.filterMap (fun o => match o with | .opened e => some e | .nothing => none | .closed _ _ => none)

/-- An outcome's closed event counted out. -/
def countOutcome (s : State) (o : ChannelOutcome) : State :=
  match o with
  | .closed e listed => countOut e listed s
  | .nothing => s
  | .opened _ => s

/-- The episode unit takes a lane's close as one: what it opened is collected, then what it closed is counted out, then
a split is judged (R50 to R52, R56). -/
def episodeTakeClose (number : Nat) (outs : List ChannelOutcome) (s : State) : State :=
  let opened := openedOf outs
  let s1 :=
    if opened.isEmpty then s
    else if s.episodes.current.isNone then openEpisode number opened s
    else opened.foldl collectEvent s
  splitIfDue number (closeIfEmpty (outs.foldl countOutcome s1))

/-- The detector takes a channel of a lane's close (R39). -/
def detectorTakeChannel (k : LaneClose) (codes : Quad (Option Nat)) (i : Slot)
    (acc : State × List ChannelOutcome × Bool) (x : Fin 4) : State × List ChannelOutcome × Bool :=
  let s := acc.1
  let ch := channel i x
  let live := s.openSite.isSome && s.isActive i && ((s.slot i).kinds.get x == .voltage)
  let r := takeChannel ch live k (codes.get x) (s.chan ch)
  (s.setChan ch r.1, acc.2.1 ++ [r.2.1], acc.2.2 || r.2.2)

/-- The detector takes the four channels of a lane's close in index order: the part, the four outcomes, and whether a
THRESHOLD entry took effect (R39). -/
def detectorTakeClose (i : Slot) (k : LaneClose) (s : State) : State × List ChannelOutcome × Bool :=
  indexes.foldl (detectorTakeChannel k (rmsCodes k) i) (s, [], false)

/-- A channel at the session end of its slot, after its event has closed (R48): no held RMS code, a staged entry in
force. -/
def ChannelState.sessionEnd (c : ChannelState) : ChannelState :=
  { c with held := none, inForce := c.staged.getD c.inForce, staged := none, pendingUnwatched := false }

/-- The detector and the episode unit take a session end (R48, R52). -/
def detectorSessionEnd (i : Slot) (s : State) : State :=
  let s1 := (slotChannels i).foldl (closeEventOf (fun f => { f with podLost := true })) s
  let s2 := (slotChannels i).foldl (fun s c => s.setChan c (s.chan c).sessionEnd) s1
  closeIfEmpty s2

/-- Whether a session end of a slot puts a staged THRESHOLD entry in force. -/
def stagedOn (i : Slot) (s : State) : Bool := (slotChannels i).any (fun c => (s.chan c).staged.isSome)

/-- SITE_CLOSE cuts the open episode (R57). -/
def cutEpisode (s : State) : State :=
  match s.episodes.current with
  | none => s
  | some e =>
    let s1 := e.openChannels.foldl (closeEventOf (fun f => { f with cut := true })) s
    match s1.episodes.current with
    | none => s1
    | some x => closeEpisode (s1.setEpisodes { s1.episodes with current := some { x with flags := { x.flags with cut := true } } })

end Sys2Proof.Machine
end

