-- ==== Sys2Proof/Machine/Harmonic.lean ====
section
/-! DEFINITION. The harmonic engine's operations: the phase tables, the window schedule, judging and folding windows,
intervals and their records (R80 to R100). -/

namespace Sys2Proof.Machine

open Sys2Proof

/-! ### Tables and lists (R80, R81, R89) -/

/-- The bin list of a BIN table: the orders as far as the first EMPTY place (R80). -/
def binList (bins : List (Option Nat)) : List Nat := (bins.takeWhile (fun b => b.isSome)).map (fun b => b.getD 0)

/-- The channels whose watch flag is yes, in channel order (R81). -/
def watchSet (flags : List Bool) : List Chan := channels.filter (fun c => flags.getD c.val false)

/-- C[0] to C[32] (R89). -/
def cosQuarter : List Nat :=
    [32767, 32728, 32609, 32412, 32137, 31785, 31356, 30852, 30273, 29621, 28898] ++
    [28105, 27245, 26319, 25329, 24279, 23170, 22005, 20787, 19519, 18204, 16846] ++
    [15446, 14010, 12539, 11039, 9512, 7962, 6393, 4808, 3212, 1608, 0]

/-- C[i] = 32767 × cos(2πi / 128), rounded to the nearest whole number (R89). -/
def cosTable (i : Nat) : Int :=
  let j := i % 128
  if j ≤ 32 then (cosQuarter.getD j 0 : Nat)
  else if j ≤ 64 then -((cosQuarter.getD (64 - j) 0 : Nat) : Int)
  else if j ≤ 96 then -((cosQuarter.getD (j - 64) 0 : Nat) : Int)
  else (cosQuarter.getD (128 - j) 0 : Nat)

/-- S[i] = 32767 × sin(2πi / 128), rounded to the nearest whole number (R89). -/
def sinTable (i : Nat) : Int := cosTable (i + 96)

/-- The table index for an order at a phase (R88). -/
def phaseIndex (order phase : Nat) : Nat := order * phase / 65536 % 128

/-! ### Intervals, aggregates and windows (R83) -/

/-- An aggregate before any window. -/
def Aggregate.zero (bins : Nat) (c : Chan) : Aggregate := ⟨c, 0, 0, 0, List.replicate bins ⟨0, 0, 0⟩, 0, 0⟩

/-- Whether a slot has a channel in an interval's watch set. -/
def Interval.watches (v : Interval) (i : Slot) : Bool := v.channels.any (fun a => a.chan.slot == i)

/-- An interval with the aggregates of a slot's channels changed. -/
def Interval.mapSlot (i : Slot) (f : Aggregate → Aggregate) (v : Interval) : Interval :=
  { v with channels := v.channels.map (fun a => if a.chan.slot = i then f a else a) }

/-- A window counted void for an aggregate (R94). -/
def Aggregate.voided (a : Aggregate) : Aggregate := { a with void := a.void + 1 }

/-- A void count taken back (R96). -/
def Aggregate.unvoided (a : Aggregate) : Aggregate := { a with void := a.void - 1 }

namespace HarmonicEngine

/-- The interval at a place. -/
def interval (h : HarmonicEngine) (p : IntervalPlace) : Option Interval :=
  match p with
  | .current => h.current
  | .ending => h.ending

/-- The engine with the interval at a place changed. -/
def mapInterval (p : IntervalPlace) (f : Interval → Interval) (h : HarmonicEngine) : HarmonicEngine :=
  match p with
  | .current => { h with current := h.current.map f }
  | .ending => { h with ending := h.ending.map f }

/-- The scheduled window that starts at a boundary. -/
def window (h : HarmonicEngine) (b : Nat) : Option Window := h.schedule.find? (fun w => w.start == b)

/-- The engine with the scheduled window that starts at a boundary changed. -/
def mapWindow (b : Nat) (f : Window → Window) (h : HarmonicEngine) : HarmonicEngine :=
  { h with schedule := h.schedule.map (fun w => if w.start = b then f w else w) }

/-- A slot is done for a window. -/
def markDone (b : Nat) (i : Slot) (h : HarmonicEngine) : HarmonicEngine :=
  h.mapWindow b (fun w => { w with done := w.done.set i true })

end HarmonicEngine

/-- A lane whose lane window is given up (R95, R96). -/
def HarmonicLane.dropWindow (l : HarmonicLane) (b : Nat) : HarmonicLane :=
  if l.window = some b then { l with window := none, accs := [] } else l

/-- A slot finishes a window void, if it is pending for it (R95). -/
def finishVoid (b : Nat) (h : HarmonicEngine) (i : Slot) : HarmonicEngine :=
  match h.window b with
  | none => h
  | some w =>
    if w.done.get i then h
    else
      let h1 := (h.mapInterval w.interval (Interval.mapSlot i Aggregate.voided)).markDone b i
      { h1 with lanes := h1.lanes.set i ((h1.lanes.get i).map (fun l => l.dropWindow b)) }

/-- Whether a window is final: its end is made and every slot is done (R94). -/
def Window.final (w : Window) : Bool := w.stop.isSome && w.done.toList.all id

/-! ### Records (R87, R97, R98) -/

/-- The mean of a sum over the valid windows; 0 when there are none (R97). -/
def meanOf (sum valid : Nat) : Nat := if valid = 0 then 0 else sum / valid

/-- A channel entry of the record (R97). -/
def channelRecord (a : Aggregate) : ChannelRecord where
  chan := a.chan
  noData := decide (a.valid = 0)
  valid := a.valid
  void := a.void
  noFund := a.noFund
  meanThd := meanOf a.thdSum a.valid
  maxThd := a.thdMax
  bins := a.bins.map (fun b => ⟨meanOf b.ampSum a.valid, b.ampMax, b.ratioMax⟩)

/-- F in mHz: the mean frequency of the counted cycles, halves rounded up; 0 when none was counted (R87). -/
def frequency (fNom cycles lengthSum : Nat) : Nat :=
  if cycles = 0 then 0 else (128000 * fNom * cycles + lengthSum / 2) / lengthSum

/-- The HARMONIC record of an interval (R97). -/
def buildHarmonic (fNom number : Nat) (v : Interval) : HarmonicRecord where
  site := v.site
  number := number
  start := v.start
  stop := v.stop
  windows := v.windows
  freq := frequency fNom v.cycles v.lengthSum
  flags := { v.flags with noFreq := decide (v.cycles = 0) }
  bins := v.bins
  channels := v.channels.map channelRecord

/-- A built record placed in the outbox of 2, or counted as lost (R98). -/
def outboxHarmonic (r : HarmonicRecord) (h : HarmonicEngine) : HarmonicEngine :=
  if h.outbox.length < 2 then { h with outbox := h.outbox ++ [r] } else { h with lost := bump h.lost }

/-- The next interval number of a site. -/
def intervalNumber (site : Nat) (s : State) : Nat :=
  match s.site site with
  | some e => e.nextInterval
  | none => 1

/-- An interval's record built: it takes the site's next interval number (R97, R128). -/
def fileInterval (v : Interval) (s : State) : State :=
  updateSite v.site (fun e => { e with nextInterval := nextSiteNumber e.nextInterval })
    (s.setHarmonic (outboxHarmonic (buildHarmonic s.survey.fNom (intervalNumber v.site s) v) s.harmonic))

/-! ### Completion (R94 to R96) -/

/-- The ending place becomes empty as its interval's record is built. -/
def fileEnding (s : State) : State :=
  match s.harmonic.ending with
  | none => s
  | some v => fileInterval v (s.setHarmonic { s.harmonic with ending := none })

/-- Final windows leave the schedule, and an ending interval with no window left is built (R94). -/
def settle (s : State) : State :=
  let h := { s.harmonic with schedule := s.harmonic.schedule.filter (fun w => !w.final) }
  let s1 := s.setHarmonic h
  if h.schedule.any (fun w => w.interval == .ending) then s1 else fileEnding s1

/-- Every slot still pending for a window of an interval finishes it void, and the interval's windows leave the
schedule (R96). -/
def voidInterval (p : IntervalPlace) (h : HarmonicEngine) : HarmonicEngine :=
  let starts := (h.schedule.filter (fun w => w.interval == p)).map (fun w => w.start)
  let h1 := starts.foldl (fun h b => indexes.foldl (finishVoid b) h) h
  { h1 with schedule := h1.schedule.filter (fun w => w.interval != p) }

/-- The ending interval completed at once, as a cut completes it (R86, R96). -/
def completeEnding (s : State) : State := fileEnding (s.setHarmonic (voidInterval .ending s.harmonic))

/-- The current interval leaves the current place and becomes the ending interval (R86). -/
def endCurrent (f : HarmonicFlags → HarmonicFlags) (s : State) : State :=
  match s.harmonic.current with
  | none => s
  | some _ =>
    let s1 := completeEnding s
    let h := s1.harmonic
    settle (s1.setHarmonic { h with
      current := none
      ending := h.current.map (fun v => { v with flags := f v.flags })
      schedule := h.schedule.map (fun w => { w with interval := .ending }) })

/-- The open window removed at a cut, with the void counts folded for it taken back (step 1 of R96). -/
def removeOpenWindow (h : HarmonicEngine) : HarmonicEngine :=
  match h.schedule.find? (fun w => w.stop.isNone) with
  | none => h
  | some w =>
    let back (h : HarmonicEngine) (i : Slot) : HarmonicEngine :=
      if w.done.get i then h.mapInterval w.interval (Interval.mapSlot i Aggregate.unvoided) else h
    let h1 := indexes.foldl back h
    { h1 with
      schedule := h1.schedule.filter (fun x => x.stop.isSome)
      lanes := h1.lanes.map (fun l => l.map (fun x => x.dropWindow w.start)) }

/-- A cut (R96). -/
def cutInterval (s : State) : State :=
  let s1 := completeEnding (s.setHarmonic (removeOpenWindow s.harmonic))
  match s1.harmonic.current with
  | none => s1
  | some _ =>
    let h := voidInterval .current s1.harmonic
    let s2 := s1.setHarmonic { h with current := none }
    match h.current with
    | none => s2
    | some v => if v.windows = 0 then s2 else fileInterval { v with flags := { v.flags with cut := true } } s2

/-! ### Boundaries (R84 to R87, R95) -/

/-- The tracker has dropped a boundary from its list: every slot still pending finishes the windows that end there
(R95). -/
def lagCompletion (dropped : Nat) (s : State) : State :=
  let starts := (s.harmonic.schedule.filter (fun w => w.stop == some dropped)).map (fun w => w.start)
  settle (s.setHarmonic (starts.foldl (fun h b => indexes.foldl (finishVoid b) h) s.harmonic))

/-- The cycle that the tracker's newest boundary closes, counted for the current interval (R87). -/
def countFrequency (s : State) : State :=
  match s.tracker.list.reverse, s.harmonic.current with
  | r :: m :: p :: _, some v =>
    if r.direction = .rising ∧ m.direction = .falling ∧ p.direction = .rising ∧ r.locked ∧ p.locked ∧
        s.tracker.mode ≠ .free ∧ v.startBoundary ≤ p.number then
      s.setHarmonic { s.harmonic with
        current := some { v with cycles := v.cycles + 1, lengthSum := v.lengthSum + (r.instant - p.instant) } }
    else s
  | _, _ => s

/-- A boundary taken into the window whose end is open (R85). -/
def Window.takeBoundary (b : Boundary) (length : Nat) (w : Window) : Window :=
  { w with
    length := w.length + length
    closes := w.closes + 1
    allLocked := w.allLocked && b.locked
    handoverChanged := w.handoverChanged || b.handovers != w.handovers
    stop := if w.closes + 1 = 16 then some b.number else none }

/-- A window of the current interval has ended at an instant (R85, R86). -/
def Interval.countWindow (instant : Nat) (v : Interval) : Interval := { v with windows := v.windows + 1, stop := instant }

/-- The end of a window judged at a boundary (R85). -/
def windowBoundary (b : Boundary) (length : Nat) (s : State) : State :=
  match s.harmonic.schedule.find? (fun w => w.stop.isNone) with
  | none => s
  | some w =>
    let h := s.harmonic.mapWindow w.start (Window.takeBoundary b length)
    if w.closes + 1 = 16 then
      let h1 := h.mapInterval w.interval (Interval.countWindow b.instant)
      let s1 := settle (s.setHarmonic h1)
      match h1.current with
      | some v => if v.m ≤ v.windows then endCurrent id s1 else s1
      | none => s1
    else s.setHarmonic h

/-- A staged pair takes effect: it replaces both tables in force (R82). -/
def applyStagedTables (h : HarmonicEngine) : HarmonicEngine :=
  match h.staged with
  | none => h
  | some (b, p) => { h with bins := b, params := p, staged := none }

/-- The interval that begins at a window start, if none is current (R86). -/
def beginInterval (site : Nat) (b : Boundary) (h : HarmonicEngine) : HarmonicEngine :=
  match h.current with
  | some _ => h
  | none =>
    let bins := binList h.bins
    { h with
      current := some
        { site := site, bins := bins, m := h.params.m, exclude := h.params.exclude, startBoundary := b.number
          start := b.instant + 1, windows := 0, stop := b.instant, cycles := 0, lengthSum := 0
          flags := ⟨false, false, false⟩, channels := (watchSet h.params.watch).map (Aggregate.zero bins.length) } }

/-- The window that starts at a boundary, each slot pending or done (steps 3 and 4 of R84). -/
def addWindow (b : Boundary) (active : Slot → Bool) (h : HarmonicEngine) : HarmonicEngine :=
  let h1 : HarmonicEngine :=
    { h with schedule := h.schedule ++ [⟨b.number, none, .current, 0, 0, b.locked, b.handovers, false, Quad.fill false⟩] }
  let watched (i : Slot) : Bool := match h.current with | some v => v.watches i | none => false
  indexes.foldl
    (fun h i => if watched i then (if active i then h else finishVoid b.number h i) else h.markDone b.number i) h1

/-- The start of a window judged at a boundary (R84). -/
def windowStart (b : Boundary) (s : State) : State :=
  match s.openSite with
  | none => s
  | some site =>
    if b.direction = .rising ∧ s.harmonic.schedule.all (fun w => w.stop.isSome) then
      let s1 :=
        if s.harmonic.staged.isSome then
          endCurrent (fun f => { f with retabled := true }) (s.setHarmonic (applyStagedTables s.harmonic))
        else s
      s1.setHarmonic (addWindow b s1.isActive (beginInterval site.id b s1.harmonic))
    else s

/-- The engine takes a boundary of the tracker: lag completion, frequency, window end, window start (R85). `length` is
the half-cycle it closes, `dropped` the boundary the list has dropped. -/
def harmonicBoundary (b : Boundary) (length : Nat) (dropped : Option Nat) (s : State) : State :=
  let s1 := match dropped with | some e => lagCompletion e s | none => s
  windowStart b (windowBoundary b length (countFrequency s1))

/-! ### Lanes (R88 to R91) -/

/-- A code's contribution to the accumulators of one order (R89). -/
def accumulateBin (x : Int) (phase : Nat) (order : Nat) (iq : Int × Int) : Int × Int :=
  (iq.1 + x * cosTable (phaseIndex order phase), iq.2 + x * sinTable (phaseIndex order phase))

/-- A set taken into the accumulators of a lane window (R89). -/
def accumulate (bins : List Nat) (x : SampleSet) (phase : Nat) (a : Accumulator) : Accumulator :=
  { a with iq := List.zipWith (accumulateBin (x.get a.chan.index).toInt phase) bins a.iq }

/-- The bin list of a lane's window. -/
def laneBins (h : HarmonicEngine) (l : HarmonicLane) : Option (List Nat) :=
  match l.window with
  | none => none
  | some b =>
    match h.window b with
    | none => none
    | some w => (h.interval w.interval).map (fun v => v.bins)

/-- The engine takes an instant of a lane: a data instant adds to the accumulators, and the phase moves on (R88, R89). -/
def harmonicInstant (i : Slot) (x : Option SampleSet) (h : HarmonicEngine) : HarmonicEngine :=
  match h.lanes.get i with
  | none => h
  | some l =>
    let accs :=
      match x, laneBins h l with
      | some set, some bins => l.accs.map (accumulate bins set l.phase)
      | _, _ => l.accs
    { h with lanes := h.lanes.set i (some { l with accs := accs, phase := l.phase + l.step }) }

/-- A slot's lane starts: its lane state, and the windows it is too late for finished void (R88, R95). Log 23. -/
def harmonicLaneStart (i : Slot) (last : Nat) (s : State) : State :=
  let h : HarmonicEngine :=
    { s.harmonic with lanes := s.harmonic.lanes.set i (some ⟨none, 0, false, false, false, false, 0, 65536, []⟩) }
  let starts := (h.schedule.filter (fun w => decide (w.start ≤ last))).map (fun w => w.start)
  settle (s.setHarmonic (starts.foldl (fun h b => finishVoid b h i) h))

/-- The session end of a slot: its pending windows finished void, its lane state discarded, and the current interval cut
if it watches the slot (R88, R95, R96). -/
def harmonicSessionEnd (i : Slot) (s : State) : State :=
  let cut := match s.harmonic.current with | some v => v.watches i | none => false
  let starts := s.harmonic.schedule.map (fun w => w.start)
  let h := starts.foldl (fun h b => finishVoid b h i) s.harmonic
  let s1 := settle (s.setHarmonic { h with lanes := h.lanes.set i none })
  if cut then cutInterval s1 else s1

/-! ### Judging and folding a window (R91 to R94) -/

/-- Whether a window is void for a lane that finishes it (R91). -/
def windowVoid (w : Window) (exclude : Bool) (l : HarmonicLane) : Bool :=
  l.gapMark || !w.allLocked || w.handoverChanged || (exclude && l.episodeMark) || !l.phaseMark

/-- The amplitude of one order over a window of `n` instants (R92). -/
def amplitude (n : Nat) (iq : Int × Int) : Nat :=
  let m := isqrt (iq.1.natAbs ^ 2 + iq.2.natAbs ^ 2)
  clamp 32767 ((4 * m + n * 32767) / (2 * n * 32767))

/-- The ratio of an amplitude to the fundamental, 0 for a window marked NO_FUND (R93). -/
def ratio (a1 a : Nat) : Nat := if 16 ≤ a1 then clamp 65535 (a * 10000 / a1) else 0

/-- THD from the fundamental and the amplitudes of the other orders (R93). -/
def distortion (a1 : Nat) (others : List Nat) : Nat :=
  if 16 ≤ a1 then clamp 65535 (isqrt (others.map (fun a => a ^ 2)).sum * 10000 / a1) else 0

/-- A valid window folded into an aggregate (R94). Place 0 of the bin list holds order 1 (R80). -/
def Aggregate.fold (amps : List Nat) (a : Aggregate) : Aggregate :=
  let a1 := amps.headD 0
  let thd := distortion a1 amps.tail
  { a with
    valid := a.valid + 1
    noFund := if 16 ≤ a1 then a.noFund else a.noFund + 1
    bins := List.zipWith
      (fun (f : BinFigures) x => ⟨f.ampSum + x, max f.ampMax x, max f.ratioMax (ratio a1 x)⟩) a.bins amps
    thdSum := a.thdSum + thd
    thdMax := max a.thdMax thd }

/-- The amplitudes of a channel's accumulators. -/
def amplitudes (n : Nat) (accs : List Accumulator) (c : Chan) : List Nat :=
  match accs.find? (fun x => x.chan == c) with
  | some x => x.iq.map (amplitude n)
  | none => []

/-- The verdict on a lane window folded into the aggregates of the slot's channels (R91, R94). -/
def foldVerdict (i : Slot) (w : Window) (l : HarmonicLane) (v : Interval) : Interval :=
  if windowVoid w v.exclude l then v.mapSlot i Aggregate.voided
  else v.mapSlot i (fun a => a.fold (amplitudes w.length l.accs a.chan))

/-- Whether a lane window's interval excludes episodes. -/
def excludes (h : HarmonicEngine) (w : Window) : Bool :=
  match h.interval w.interval with
  | some v => v.exclude
  | none => false

/-- A close counted in the lane window, which is judged and folded if the close ends it (step 1 of R90). -/
def closeLaneWindow (i : Slot) (k : LaneClose) (episodeOpen : Bool) (l : HarmonicLane) (h : HarmonicEngine) :
    HarmonicEngine × HarmonicLane :=
  match l.window with
  | none => (h, l)
  | some b =>
    match h.window b with
    | none => (h, l)
    | some w =>
      let l1 : HarmonicLane :=
        { l with
          closes := l.closes + 1
          gapMark := l.gapMark || k.gap || k.direction.isNone
          episodeMark := l.episodeMark || (excludes h w && episodeOpen) }
      if w.stop = some k.number then
        ((h.mapInterval w.interval (foldVerdict i w l1)).markDone b i, { l1 with window := none, accs := [] })
      else (h, l1)

/-- The lane window that starts at a close (step 2 of R90). -/
def openLaneWindow (i : Slot) (k : LaneClose) (h : HarmonicEngine) (l : HarmonicLane) : HarmonicLane :=
  match h.window k.number with
  | none => l
  | some w =>
    match h.interval w.interval with
    | none => l
    | some v =>
      if w.done.get i then l
      else
        { l with
          window := some w.start
          closes := 0
          gapMark := false
          episodeMark := false
          phaseMark := k.direction == some .rising
          undirected := k.direction.isNone
          accs := (v.channels.filter (fun a => a.chan.slot == i)).map
            (fun a => ⟨a.chan, List.replicate v.bins.length (0, 0)⟩) }

/-- The phase updated at a close (step 3 of R90, R88). In a lane window that started without a direction the mark stays
clear until the window ends. -/
def closePhase (k : LaneClose) (l : HarmonicLane) : HarmonicLane :=
  match k.direction with
  | none => { l with phaseMark := false }
  | some .falling => l
  | some .rising =>
    { l with phase := 0, step := k.step.getD l.step, phaseMark := l.window.isNone || !l.undirected }

/-- The engine takes a close of a lane (R90). -/
def harmonicClose (i : Slot) (k : LaneClose) (episodeOpen : Bool) (s : State) : State :=
  match s.harmonic.lanes.get i with
  | none => s
  | some l =>
    let r := closeLaneWindow i k episodeOpen l s.harmonic
    let l1 := closePhase k (openLaneWindow i k r.1 r.2)
    settle (s.setHarmonic { r.1 with lanes := r.1.lanes.set i (some l1) })

/-! ### Soft reset (R100) -/

/-- The engine after SOFT_RESET. -/
def HarmonicEngine.softReset (h : HarmonicEngine) : HarmonicEngine :=
  { applyStagedTables h with
    schedule := []
    current := none
    ending := none
    outbox := []
    writer := none
    late := 0
    lost := 0
    lanes := Quad.fill none }

end Sys2Proof.Machine
end

