-- ==== Sys2Proof/Machine/Tracker.lean ====
section
/-! DEFINITION. The cycle tracker's operations: deciding instants, boundaries, crossings, handover (R21 to R35). -/

namespace Sys2Proof.Machine

open Sys2Proof

/-! ### Boundaries (R23, R29) -/

/-- The other direction. -/
def Direction.opposite : Direction → Direction
  | .rising => .falling
  | .falling => .rising

/-- L_prev at a RISING boundary, for the list before it and whether the tracker is in FREE after the close (R29). -/
def cycleLength (list : List Boundary) (n : Nat) (free : Bool) : Nat :=
  if free then 128
  else
    match list.reverse with
    | m :: p :: _ => if m.direction = .falling ∧ p.direction = .rising then n - p.instant else 128
    | _ => 128

/-- The phase step of a cycle length (R29). -/
def phaseStep (length : Nat) : Nat := 128 * 65536 / length

/-- The list entry of a boundary (step 1 of R23). -/
def Tracker.entry (t : Tracker) (n : Nat) (d : Direction) (after : TrackerMode) : Boundary where
  number := t.nextNumber
  instant := n
  direction := d
  locked := t.mode == .locked
  handovers := t.handoverCount
  cycle :=
    match d with
    | .rising => let l := cycleLength t.list n (after == .free); some (l, phaseStep l)
    | .falling => none

/-- A boundary appended to the list, which holds 16, and the number of the one it drops (step 2 of R23). -/
def appendBoundary (list : List Boundary) (b : Boundary) : List Boundary × Option Nat :=
  if list.length < 16 then (list ++ [b], none) else (list.tail ++ [b], list.head?.map (fun x => x.number))

/-- The tracker after it has made a boundary that leaves it in a mode (R23). -/
def Tracker.make (t : Tracker) (b : Boundary) (after : TrackerMode) : Tracker :=
  { t with
    mode := after
    list := (appendBoundary t.list b).1
    newest := some (b.number, b.instant)
    nextNumber := b.number + 1
    lastDirection := b.direction
    lPrev := match b.cycle with | some (l, _) => l | none => t.lPrev
    position := 0
    decision := some b.instant }

/-- The tracker decides that instant `n` ends a half-cycle of `length` instants (R23), and the harmonic engine takes the
boundary (R85). -/
def makeBoundary (n : Nat) (d : Direction) (after : TrackerMode) (length : Nat) (s : State) : State × Boundary :=
  let b := s.tracker.entry n d after
  let dropped := (appendBoundary s.tracker.list b).2
  (harmonicBoundary b length dropped (s.setTracker (s.tracker.make b after)), b)

/-! ### FREE (R22, R25) -/

/-- An instant decided in FREE (R25). -/
def decideFree (s : State) (n : Nat) : State :=
  let t := s.tracker
  if 64 ≤ t.position + 1 then (makeBoundary n t.lastDirection.opposite .free (t.position + 1) s).1
  else s.setTracker { t with position := t.position + 1, decision := some n }

/-- `count` instants decided in FREE from an instant on. -/
def decideRange : Nat → Nat → State → State
  | 0, _, s => s
  | count + 1, n, s => decideRange count (n + 1) (decideFree s n)

/-- The instant after the decision point. -/
def Tracker.undecided (t : Tracker) : Nat := match t.decision with | some d => d + 1 | none => 0

/-- Every instant that has passed is decided by the FREE rules at once (R22). -/
def catchUp (s : State) : State := decideRange (s.instant - s.tracker.undecided) s.tracker.undecided s

/-- The tracker enters FREE from SEEKING or LOCKED (R22, R25). -/
def enterFree (s : State) : State :=
  catchUp (s.setTracker { s.tracker with mode := .free, crossingCloses := 0, forcedRun := 0 })

/-! ### The reference (R31 to R34) -/

/-- Whether a lane is no more than 1024 instants below the instant counter less one (R31). -/
def laneNear (s : State) (i : Slot) : Bool :=
  match (s.slot i).lane with
  | some l => decide (s.instant ≤ l.position + 1024)
  | none => false

/-- Whether a channel's held RMS code lets it qualify (R31). -/
def strongEnough (c : ChannelState) : Bool :=
  if c.inForce.nc = 0 then true
  else
    match c.held with
    | some r => decide (c.inForce.nc * 100 ≤ r * 1000)
    | none => false

/-- Whether a candidate channel qualifies as a reference (R31). -/
def qualifies (s : State) (c : Chan) : Bool :=
  s.isActive c.slot && ((s.slot c.slot).kinds.get c.index == .voltage) && strongEnough (s.chan c) && laneNear s c.slot

/-- The candidate list (R30). -/
def Tracker.candidates (t : Tracker) : List Chan := t.table.toList.filterMap (fun e => e.bind chanOf)

/-- The first candidate that qualifies, or none (R32, R33). -/
def chooseReference (s : State) : Option Chan := s.tracker.candidates.find? (qualifies s)

/-- The handover count incremented (R21). -/
def nextHandover (n : Nat) : Nat := (n + 1) % 4294967296

/-- The reference change record written, and REFERENCE_CHANGE raised (R34). Log 27. -/
def recordChange (reason : ChangeReason) (previous next : Option Chan) (s : State) : State :=
  let t := s.tracker
  raise 5 (s.setTracker { t with change := some ⟨reason, previous, next, t.decision, t.handoverCount⟩ })

/-- A reference looked for while none is held (R32). -/
def acquire (s : State) : State :=
  match s.tracker.reference, chooseReference s with
  | none, some c =>
    recordChange .acquired none (some c)
      (s.setTracker { s.tracker with
        reference := some c, handoverCount := nextHandover s.tracker.handoverCount, side := .unknown })
  | _, _ => s

/-- Handover (R33). -/
def handover (reason : ChangeReason) (s : State) : State :=
  let s1 := if s.tracker.mode = .free then s else enterFree s
  let next := chooseReference s1
  recordChange reason s.tracker.reference next
    (s1.setTracker { s1.tracker with
      reference := next, handoverCount := nextHandover s1.tracker.handoverCount, side := .unknown
      crossingCloses := 0, forcedRun := 0 })

/-- Whether a slot is the reference's. -/
def Tracker.follows (t : Tracker) (i : Slot) : Bool :=
  match t.reference with
  | some c => c.slot == i
  | none => false

/-- Handover when the reference lane has fallen more than 1024 instants behind (R33). -/
def judgeStalled (s : State) : State :=
  match s.tracker.reference with
  | some c => if laneNear s c.slot then s else handover .stalled s
  | none => s

/-- A close of a slot as the tracker sees it: the reference too weak hands over, and with no reference held one is looked
for when a held RMS code or a THRESHOLD entry has changed (R32, R33). -/
def trackerTakeClose (i : Slot) (gap changed : Bool) (s : State) : State :=
  let weak :=
    match s.tracker.reference with
    | some c => c.slot == i && !gap && !strongEnough (s.chan c)
    | none => false
  let s1 := if weak then handover .weak s else s
  if !gap || changed then acquire s1 else s1

/-! ### Crossings (R24, R26 to R28) -/

/-- The crossing detector on a code: the side after it and the crossing it makes (R24). -/
def detect (h : Nat) (x : Code) (side : Side) : Side × Option Direction :=
  if (h : Int) ≤ x.toInt then (.high, match side with | .low => some .rising | .high => none | .unknown => none)
  else if x.toInt ≤ -(h : Int) - 1 then
    (.low, match side with | .high => some .falling | .low => none | .unknown => none)
  else (side, none)

/-- The detector on an instant of the reference lane; a gap instant makes no crossing (R24). -/
def detectInstant (h : Nat) (x : Option Code) (side : Side) : Side × Option Direction :=
  match x with
  | some c => detect h c side
  | none => (side, none)

/-- A close by a crossing in SEEKING or LOCKED (R26, R28). -/
def crossingClose (n : Nat) (d : Direction) (s : State) : State × Option Boundary :=
  let t := s.tracker
  let closes := if t.mode = .seeking then t.crossingCloses + 1 else t.crossingCloses
  let r := makeBoundary n d (if 2 ≤ closes then .locked else t.mode) (t.position + 1) s
  (r.1.setTracker { r.1.tracker with crossingCloses := closes, forcedRun := 0 }, some r.2)

/-- A forced close (R27). -/
def forcedClose (n : Nat) (s : State) : State × Option Boundary :=
  let t := s.tracker
  let free := decide (t.mode = .seeking ∨ 3 ≤ t.forcedRun)
  let r := makeBoundary n t.lastDirection.opposite (if free then .free else t.mode) (t.position + 1) s
  let s1 := r.1.setTracker { r.1.tracker with forcedCloses := bump t.forcedCloses, forcedRun := t.forcedRun + 1 }
  if free then
    let s2 := enterFree s1
    (if t.mode = .locked then recordChange .unlocked t.reference t.reference s2 else s2, some r.2)
  else (s1, some r.2)

/-- The instant after the decision point decided in SEEKING or LOCKED, for the crossing it carries (R26, R27). -/
def decideByCrossing (n : Nat) (crossing : Option Direction) (s : State) : State × Option Boundary :=
  let t := s.tracker
  let open_ (t : Tracker) : State := s.setTracker { t with position := t.position + 1, decision := some n }
  match crossing with
  | some d => if 52 ≤ t.position + 1 then crossingClose n d s else (open_ { t with chatter := bump t.chatter }, none)
  | none => if 76 ≤ t.position + 1 then forcedClose n s else (open_ t, none)

/-- A crossing found in FREE judged by its position as the reference lane sees it (R28). -/
def acceptCrossing (lanePosition : Nat) (crossing : Option Direction) (s : State) : State :=
  if crossing.isSome ∧ 52 ≤ lanePosition ∧ lanePosition ≤ 76 then
    s.setTracker { s.tracker with mode := .seeking, crossingCloses := 0, forcedRun := 0 }
  else s

/-- The tracker takes an instant of a lane: nothing, unless the lane is the reference's (R22, R24). `lanePosition` is the
instant's position in the lane's half-cycle. It answers the boundary it makes. -/
def trackerTakeInstant (i : Slot) (n : Nat) (x : Option SampleSet) (lanePosition : Nat) (s : State) :
    State × Option Boundary :=
  match s.tracker.reference with
  | none => (s, none)
  | some c =>
    if c.slot = i then
      let r := detectInstant s.survey.h (x.map (fun y => y.get c.index)) s.tracker.side
      let s1 := s.setTracker { s.tracker with side := r.1 }
      if s1.tracker.mode = .free then (acceptCrossing lanePosition r.2 s1, none)
      else if n = s1.tracker.undecided then decideByCrossing n r.2 s1
      else (s1, none)
    else (s, none)

/-- Whether a lane may process an instant (R17). -/
def published (s : State) (i : Slot) (n : Nat) : Bool :=
  decide (n < s.tracker.undecided) ||
    (s.tracker.mode != .free && s.tracker.follows i && decide (n = s.tracker.undecided))

/-! ### Soft reset (R35) -/

/-- The tracker after SOFT_RESET, once it has entered FREE. -/
def Tracker.softReset (t : Tracker) : Tracker :=
  { t with
    reference := none
    side := .unknown
    crossingCloses := 0
    forcedRun := 0
    list := []
    lPrev := 128
    change := none
    chatter := 0
    forcedCloses := 0 }

/-- SOFT_RESET in the tracker. The harmonic engine, which discards its intervals, takes none of the boundaries made while
every passed instant is decided. Log 33. -/
def trackerSoftReset (s : State) : State :=
  let t := if s.tracker.mode = .free then s.tracker else (enterFree s).tracker
  s.setTracker t.softReset

end Sys2Proof.Machine
end

