-- ==== Sys2Proof/Machine/Session.lean ====
section
/-! DEFINITION. Session ends, the end of a debounce, and the start of a session (R2 to R8). -/

namespace Sys2Proof.Machine

open Sys2Proof

/-! ### Session end (R7, R8) -/

/-- The session unit's own part of a session end (R7). -/
def PodSlot.endSession (r : EndReason) (p : PodSlot) : PodSlot :=
  { p with
    phase := .ending
    endReason := some r
    quietTimer := none
    ingress := []
    lastSeq := none
    lane := none
    pendingSet := 0 }

/-- The session unit's part of a session end for a slot. -/
def beginEnding (r : EndReason) (s : State) (i : Slot) : State := s.setSlot i ((s.slot i).endSession r)

/-- The detector, the episode unit, the capture unit and the harmonic engine take a session end, in this order (R48, R74, R95,
log 59). -/
def announceEnd (s : State) (i : Slot) : State :=
  let s1 := detectorSessionEnd i s
  harmonicSessionEnd i (s1.setCap i ((s1.cap i).podLost (busyBytes s1 i)))

/-- The sessions of ACTIVE slots end with a reason (R7): the session unit's part for all of them, then the reactions of
the other blocks, the tracker's handover after the harmonic engine's cut (log 60), and each slot whose capture slot is IDLE
becomes EMPTY (R8, log 28). POD_CASCADE follows the emptied pending sets after the other blocks have raised their own sources
(log 51). -/
def endSessions (slots : List Slot) (r : EndReason) (s : State) : State :=
  let lost := slots.any s.tracker.follows
  let staged := slots.any (fun i => stagedOn i s)
  let s1 := slots.foldl announceEnd (slots.foldl (beginEnding r) s)
  let s2 := if lost then handover .lost s1 else s1
  let s3 := followCascade (if staged then acquire s2 else s2)
  slots.foldl (fun s i => endingToEmpty i s) s3

/-! ### Debounce (R2, R3, R5) -/

/-- The session event record written, and POD_SESSION raised (R1). -/
def sessionEvent (slot : Option Slot) (serial : BitVec 48) (o : SessionOutcome) (s : State) : State :=
  raise 6 (s.setSession { s.session with event := some ⟨slot, serial, o⟩ })

/-- A slot in DEBOUNCE returns to EMPTY with outcome ATTACH_FAILED (R3). -/
def debounceFails (i : Slot) (s : State) : State :=
  let p := s.slot i
  sessionEvent (some i) p.serial .attachFailed
    (s.setSlot i { p with phase := .empty, serial := 0, kinds := Quad.fill .none, debounceCount := 0, debounceTimer := none })

/-- A GRANT with the instant counter's value and f_nom (R3, R4, R14). -/
def grant (serial : BitVec 48) (result : GrantResult) (slot : Option Slot) (s : State) : State :=
  sendUp (.grant serial result slot s.instant s.survey.fNom) s

/-- The slot that is not EMPTY and holds a serial. -/
def matching (s : State) (serial : BitVec 48) : Option Slot :=
  indexes.find? (fun i => (s.slot i).phase != .empty && (s.slot i).serial == serial)

/-- The lowest-numbered EMPTY slot. -/
def lowestEmpty (s : State) : Option Slot := indexes.find? (fun i => (s.slot i).phase == .empty)

/-- A slot taken into DEBOUNCE (R2). -/
def PodSlot.debounce (serial : BitVec 48) (kinds : Quad Kind) (p : PodSlot) : PodSlot :=
  { p with
    phase := .debounce
    serial := serial
    kinds := kinds
    debounceCount := 1
    debounceTimer := some 0
    lastSeq := none
    pendingSet := 0
    endReason := none }

/-- An ATTACH that matches no slot (R2). -/
def attachNew (serial : BitVec 48) (kinds : Quad Kind) (s : State) : State :=
  if s.parked then grant serial .busy none s
  else
    match lowestEmpty s with
    | some i => s.setSlot i ((s.slot i).debounce serial kinds)
    | none => sessionEvent none serial .noSlot (grant serial .noSlot none s)

/-- A lane that starts at the instant after the tracker's newest boundary (R15). With no boundary made its last boundary
number is 0, the one before the first (log 45). -/
def Lane.start (newest : Option (Nat × Nat)) : Lane where
  position := match newest with | some (_, t) => t + 1 | none => 0
  lastBoundary := match newest with | some (b, _) => b | none => 0
  halfStart := match newest with | some (_, t) => t + 1 | none => 0
  sumSquares := Quad.fill 0
  dataCount := Quad.fill 0
  hTotal := 0
  gapMark := false
  clipMark := false

/-- A slot whose third ATTACH has been taken becomes ACTIVE (R3). -/
def PodSlot.activate (newest : Option (Nat × Nat)) (p : PodSlot) : PodSlot :=
  { p with
    phase := .active
    debounceCount := 3
    debounceTimer := none
    quietTimer := some 0
    lane := some (Lane.start newest) }

/-- A session starts on a slot (R3): GRANT, the quiet timer, the lane, the session event record, POD_SESSION; the
harmonic engine takes the lane's start (R95), and then the tracker looks for a reference (R32, log 58). -/
def startSession (i : Slot) (s : State) : State :=
  let p := s.slot i
  let l := Lane.start s.tracker.newest
  let s1 := grant p.serial .ok (some i) (s.setSlot i (p.activate s.tracker.newest))
  acquire (sessionEvent (some i) p.serial .attached (harmonicLaneStart i l.lastBoundary s1))

/-- An ATTACH for a slot in DEBOUNCE (R3). -/
def attachDebounce (i : Slot) (kinds : Quad Kind) (s : State) : State :=
  let p := s.slot i
  if p.kinds = kinds then
    if 3 ≤ p.debounceCount + 1 then startSession i s
    else s.setSlot i { p with debounceCount := p.debounceCount + 1, debounceTimer := some 0 }
  else s.setSlot i { p with kinds := kinds, debounceCount := 1, debounceTimer := some 0 }

/-- An ATTACH taken from the control queue, by the state of the slot that its serial matches (R2 to R4). -/
def takeAttach (serial : BitVec 48) (kinds : Quad Kind) (s : State) : State :=
  match matching s serial with
  | none => attachNew serial kinds s
  | some i =>
    match (s.slot i).phase with
    | .debounce => attachDebounce i kinds s
    | .active => grant serial .ok (some i) (s.setSlot i { s.slot i with quietTimer := some 0 })
    | .ending => grant serial .busy (some i) s
    | .empty => s

/-! ### Frames that pass through the control queue (R6, R9, R10) -/

/-- The ACTIVE slot a control frame comes from (R6). -/
def frameSlot (s : State) (f : ControlFrame) : Option Slot :=
  let active (i : Option Slot) : Option Slot := i.bind (fun j => if s.isActive j then some j else none)
  match f with
  | .attach serial _ => active (matching s serial)
  | .status slot _ => active (slotOf slot.toNat)
  | .podReply slot _ _ => active (slotOf slot.toNat)
  | .podNotice slot _ _ => active (slotOf slot.toNat)

/-- The quiet timer of a slot restarted (R6). -/
def restartQuiet (i : Slot) (s : State) : State := s.setSlot i { s.slot i with quietTimer := some 0 }

/-- A stray frame counted. -/
def countStray (s : State) : State := s.setSession { s.session with stray := bump s.session.stray }

/-- The head of the control queue taken. -/
def dropControl (s : State) : State := s.setSession { s.session with control := s.session.control.tail }

/-- A POD_NOTICE taken for an ACTIVE slot: its pending set, and the clip mark when the clipped flag becomes 1 (R10,
R15). -/
def PodSlot.takeNotice (code : Fin 8) (setting : Bool) (p : PodSlot) : PodSlot :=
  let p1 : PodSlot := { p with pendingSet := setCode p.pendingSet code setting }
  if p1.clipped ∧ ¬p.clipped then { p1 with lane := p1.lane.map (fun l => { l with clipMark := true }) } else p1

end Sys2Proof.Machine
end

