-- ==== Sys2Proof/Machine/Lane.lean ====
section
/-! DEFINITION. The sample lanes: taking frames, processing instants, closing half-cycles, resyncing (R12, R15 to
R18). -/

namespace Sys2Proof.Machine

open Sys2Proof

/-! ### The ingress queue (R12) -/

/-- Bytes a SAMPLE frame occupies (R12). -/
def IngressFrame.size (f : IngressFrame) : Nat := 6 + 8 * f.count + 2

/-- Bytes of an ingress queue in use. -/
def ingressUsed (q : List IngressFrame) : Nat := (q.map IngressFrame.size).sum

/-- The first instant of a frame extended to 48 bits against the counter (R12): the value in c − 2³² + 1 .. c, or none
if it is below 0. -/
def extendInstant (c : Nat) (field : BitVec 32) : Option Nat :=
  let back := (c + (4294967296 - field.toNat)) % 4294967296
  if back ≤ c then some (c - back) else none

/-! ### Taking frames (R16) -/

/-- Sets below a position discarded from a frame. -/
def IngressFrame.trim (p : Nat) (f : IngressFrame) : IngressFrame :=
  { f with next := max f.next p, sets := f.sets.drop (p - f.next) }

/-- The frames that the lane takes from the head of its queue to reach a set at its position or later, and how many of
them were stray (R16). -/
def takeFrames (p : Nat) : List IngressFrame → List IngressFrame × Nat
  | [] => ([], 0)
  | f :: rest =>
    if f.taken then (f :: rest, 0)
    else if f.next < p then
      let g := f.trim p
      if g.sets.isEmpty then
        let r := takeFrames p rest
        (r.1, r.2 + 1)
      else ({ g with taken := true } :: rest, 1)
    else ({ f with taken := true } :: rest, 0)

/-- A counter counted a number of times. -/
def bumpBy (n k : Nat) : Nat := min 65535 (n + k)

/-- The set that the head of the queue holds for an instant, and the queue once it is processed. -/
def takeSet (n : Nat) : List IngressFrame → Option SampleSet × List IngressFrame
  | [] => (none, [])
  | f :: rest =>
    if f.next = n then
      match f.sets with
      | [] => (none, rest)
      | x :: more => (some x, if more.isEmpty then rest else { f with next := n + 1, sets := more } :: rest)
    else (none, f :: rest)

/-- The queue with the sets up to an instant discarded, and the frames emptied so gone (R18). A frame that straddles the
instant then starts at the next one, and the lane that takes it later counts no stray frame (log 42). -/
def discardThrough (t : Nat) (q : List IngressFrame) : List IngressFrame :=
  (q.map (IngressFrame.trim (t + 1))).filter (fun f => !f.sets.isEmpty)

/-! ### Closes (R15) -/

/-- The square of a code. -/
def square (x : Code) : Nat := x.toInt.natAbs ^ 2

/-- A lane with an instant counted in its open half-cycle (steps 2 and 3 of R15). -/
def Lane.count (x : Option SampleSet) (clipped : Bool) (l : Lane) : Lane :=
  let l1 : Lane :=
    match x with
    | some set =>
      { l with
        sumSquares := Quad.zip (fun s c => s + square c) l.sumSquares set
        dataCount := l.dataCount.map (· + 1) }
    | none => { l with gapMark := true }
  { l1 with hTotal := l1.hTotal + 1, clipMark := l1.clipMark || clipped, position := l1.position + 1 }

/-- A lane after a close at a boundary, with the first instant of the half-cycle that opens (step 4 of R15). -/
def Lane.closed (number start : Nat) (l : Lane) : Lane :=
  { l with
    lastBoundary := number
    halfStart := start
    sumSquares := Quad.fill 0
    dataCount := Quad.fill 0
    hTotal := 0
    gapMark := false
    clipMark := false }

/-- What a lane hands over at a close. -/
def Lane.close (l : Lane) (number : Nat) (d : Option Direction) (instant : Nat) (step : Option Nat) : LaneClose :=
  { number := number, direction := d, instant := instant, start := l.halfStart, sumSquares := l.sumSquares
    dataCount := l.dataCount, hTotal := l.hTotal, gap := l.gapMark || d.isNone, clip := l.clipMark, step := step }

/-- A slot's lane replaced. -/
def setLane (i : Slot) (l : Lane) (s : State) : State := s.setSlot i { s.slot i with lane := some l }

/-- A close delivered to the capture unit, the detector, the episode unit, the harmonic engine and the tracker, in this
order (log 13). -/
def deliverClose (i : Slot) (k : LaneClose) (position : Nat) (s : State) : State :=
  let s1 := s.setCap i ((s.cap i).takeClose k (rmsCodes k) position (busyBytes s i))
  let r := detectorTakeClose i k s1
  let s2 := episodeTakeClose k.number r.2.1 r.1
  let s3 := harmonicClose i k (s1.episodes.current.isSome || s2.episodes.current.isSome) s2
  trackerTakeClose i k.gap r.2.2 s3

/-- The boundary that a lane closes at, if an instant is that of the boundary that follows its last one (R15). `made` is
a boundary the tracker has made at this instant. -/
def boundaryAt (s : State) (l : Lane) (n : Nat) (made : Option Boundary) : Option Boundary :=
  (s.tracker.list ++ made.toList).find? (fun b => b.number == l.lastBoundary + 1 && b.instant == n)

/-! ### Instants (R15) -/

/-- A lane processes an instant (R15). A close that it makes there is taken with the instant processed, the position that its
receivers see being the instant after (log 65). -/
def processInstant (i : Slot) (l : Lane) (s : State) : State :=
  let n := l.position
  let p := s.slot i
  let r := takeSet n p.ingress
  let l1 := l.count r.1 p.clipped
  let s1 := s.setCap i ((s.cap i).takeInstant n r.1 (busyBytes s i))
  let s2 := s1.setHarmonic (harmonicInstant i r.1 s1.harmonic)
  let s3 := s2.setSlot i { p with ingress := r.2, lane := some l1 }
  let t := trackerTakeInstant i n r.1 l1.hTotal s3
  match boundaryAt t.1 l n t.2 with
  | none => t.1
  | some b =>
    deliverClose i (l1.close b.number (some b.direction) n (b.cycle.map (fun c => c.2))) (n + 1)
      (setLane i (l1.closed b.number (n + 1)) t.1)

/-! ### Resync (R18) -/

/-- The oldest listed boundary, if the lane lags (R18). -/
def lagging (s : State) (l : Lane) : Option Boundary :=
  match s.tracker.list with
  | b :: _ => if l.lastBoundary + 1 < b.number then some b else none
  | [] => none

/-- `count` gap markers put into the capture unit from an instant on. -/
def markGaps (i : Slot) : Nat → Nat → State → State
  | 0, _, s => s
  | count + 1, n, s => markGaps i count (n + 1) (s.setCap i ((s.cap i).takeInstant n none (busyBytes s i)))

/-- The gapped closes of a resync up to boundary `b`, `count` of them, from a lane that has closed at `b.number − count`
(step 2 of R18). The instant of a boundary that has left the list is a free value (log 14); the lane's position is the
instant after `b` throughout (log 54). -/
def resyncCloses (i : Slot) (b : Boundary) : Nat → Lane → State → State
  | 0, _, s => s
  | count + 1, l, s =>
    let number := l.lastBoundary + 1
    let instant := if count = 0 then b.instant else Config.departedInstant number s.instant
    let l1 := l.closed number (instant + 1)
    resyncCloses i b count l1 (deliverClose i (l.close number none instant none) l1.position (setLane i l1 s))

/-- A lane that lags resyncs to the oldest boundary still listed (R18, log 31). Every gap marker reaches the capture unit
before the first of the closes (log 46). -/
def resync (i : Slot) (l : Lane) (b : Boundary) (s : State) : State :=
  let s1 := markGaps i (b.instant + 1 - l.position) l.position s
  let s2 := s1.setSlot i { s1.slot i with ingress := discardThrough b.instant (s1.slot i).ingress }
  let s3 := resyncCloses i b (b.number - l.lastBoundary) { l with position := b.instant + 1 } s2
  s3.setSession { s3.session with laneResyncs := bump s3.session.laneResyncs }

/-- What a lane does when it has a frame to process (R15 to R18): it takes the frame, and if the tracker has published
its next instant it resyncs or processes that instant. Log 32. -/
def laneStep (i : Slot) (s : State) : State :=
  let p := s.slot i
  match p.lane with
  | none => s
  | some l =>
    let r := takeFrames l.position p.ingress
    let s1 := (s.setSlot i { p with ingress := r.1 }).setSession
      { (s.setSlot i { p with ingress := r.1 }).session with stray := bumpBy s.session.stray r.2 }
    if r.1.isEmpty then s1
    else if published s1 i l.position then
      match lagging s1 l with
      | some b => resync i l b s1
      | none => processInstant i l s1
    else s1

end Sys2Proof.Machine
end

