-- ==== Sys2Proof/Machine/Rows.lean ====
section
/-! DEFINITION. The text rows and dot lines of a report: characters, numbers, and the rows of each template line (R146,
R153 to R158). -/

namespace Sys2Proof.Machine

open Sys2Proof

/-! ### Text (R146) -/

/-- Characters as bytes. -/
def ascii (cs : List Char) : Text := cs.map (fun c => byte c.toNat)

/-- The space. -/
def space : Byte := 0x20#8

/-- `n` spaces. -/
def spaces (n : Nat) : Text := List.replicate n space

/-- The question mark replaces a byte outside 0x20..0x7E (00_scope.md). -/
def printable (b : Byte) : Byte := if 0x20 ≤ b.toNat ∧ b.toNat ≤ 0x7E then b else 0x3F#8

/-- A digit's character. -/
def digit (n : Nat) : Byte := byte (48 + n % 10)

/-- The decimal digits of a number, in front of text already made. -/
def decimalFrom : Nat → Nat → Text → Text
  | 0, _, rest => rest
  | fuel + 1, n, rest => if n < 10 then digit n :: rest else decimalFrom fuel (n / 10) (digit n :: rest)

/-- A number in decimal without leading zeros. -/
def decimal (n : Nat) : Text := decimalFrom (n.log2 + 1) n []

/-- Exactly two digits. -/
def twoDigits (n : Nat) : Text := [digit (n / 10), digit n]

/-- Text right-justified in a field. -/
def field (width : Nat) (t : Text) : Text := spaces (width - t.length) ++ t

/-- Text padded with spaces or cut to a row of 32 characters. -/
def row (t : Text) : Text := (t ++ spaces 32).take 32

/-- Items separated by single spaces. -/
def items : List Text → Text
  | [] => []
  | [t] => t
  | t :: rest => t ++ space :: items rest

/-- A channel as CH00..CH15. -/
def chanText (n : Nat) : Text := ascii ['C', 'H'] ++ twoDigits n

/-- A value in units of 0.01 % as a percentage. -/
def percent (n : Nat) : Text := decimal (n / 100) ++ ascii ['.'] ++ twoDigits (n % 100) ++ ascii ['%']

/-- A frequency in mHz as its whole hertz and three digits. -/
def hertz (n : Nat) : Text := decimal (n / 1000) ++ ascii ['.'] ++ [digit (n / 100), digit (n / 10), digit n]

/-! ### Dot lines (R153) -/

/-- A glyph's dot line, its leftmost dot in bit 11; the space has no dot. -/
def glyph (c : Byte) (k : Nat) : BitVec 12 := if c = space then 0 else Config.glyphLine c k

/-- Two glyph lines side by side in three bytes. -/
def glyphPair (a b : BitVec 12) : List Byte :=
  [a.extractLsb' 4 8, (a.extractLsb' 0 4 ++ b.extractLsb' 8 4 : BitVec 8), b.extractLsb' 0 8]

/-- Dot line `k` of characters, two by two. -/
def dotPairs (k : Nat) : Text → List Byte
  | a :: b :: rest => glyphPair (glyph a k) (glyph b k) ++ dotPairs k rest
  | _ => []

/-- Dot line `k` of the 28 of a text row: 48 bytes (R153). -/
def dotLine (t : Text) (k : Nat) : List Byte := if k < 24 then dotPairs k (row t) else List.replicate 48 0

/-- A feed line: no dot set (R160). -/
def blankLine : List Byte := List.replicate 48 0

/-! ### SITE_HEADER (R154) -/

/-- Row `r` of a SITE_HEADER, counted from 0. -/
def siteRow (e : SiteEntry) (r : Nat) : Text :=
  match r with
  | 0 =>
    items [ascii ['S', 'I', 'T', 'E'], decimal e.id,
      match e.state with
      | .opened => ascii ['O', 'P', 'E', 'N']
      | .closed => ascii ['C', 'L', 'O', 'S', 'E', 'D']]
  | 1 => e.name
  | 2 => items [ascii ['O', 'P', 'E', 'N', 'E', 'D'], decimal e.opened]
  | 3 =>
    items [ascii ['C', 'L', 'O', 'S', 'E', 'D'], match e.closed with | some n => decimal n | none => ascii ['-']]
  | _ =>
    items [ascii ['R', 'E', 'C', 'O', 'R', 'D', 'S'], decimal e.records, ascii ['N', 'O', 'T', 'E', 'S'], decimal e.notes]

/-! ### EPISODE_LIST (R155, R156) -/

/-- A little-endian field of a record's bytes. -/
def fieldOf (bytes : List Byte) (offset size : Nat) : Nat := ofLe ((bytes.drop offset).take size)

/-- The depth of an episode, from its summary (R155). -/
def depthOf (block : List Byte) : Nat := distance (fieldOf block 16 2) 1000

/-- "(lost)" and a record id (R156). -/
def lostRow (id : Nat) : Text := items [ascii ['(', 'l', 'o', 's', 't', ')'], decimal id]

/-- The placeholder row. -/
def noneRow : Text := ascii ['(', 'n', 'o', 'n', 'e', ')']

/-- The heading row of an EPISODE_LIST (R156). -/
def episodeHeading (minDepth : Nat) : Text :=
  items [ascii ['E', 'P', 'I', 'S', 'O', 'D', 'E', 'S'], ascii ['D', 'E', 'P', 'T', 'H'], decimal minDepth]

/-- A flag's column: its letter, or a hyphen where it is clear. -/
def flagColumn (flags : Byte) (k : Nat) (c : Char) : Text := if flags.getLsbD k then ascii [c] else ascii ['-']

/-- The row of an episode, from its summary (R156). -/
def episodeRow (block : List Byte) : Text :=
  let flags := block.getD 1 0
  field 5 (decimal (fieldOf block 12 2)) ++ spaces 1 ++ chanText (fieldOf block 15 1) ++ spaces 1 ++
    field 5 (decimal (fieldOf block 16 2)) ++ spaces 1 ++ field 10 (decimal (fieldOf block 32 4)) ++ spaces 1 ++
    flagColumn flags 0 'C' ++ flagColumn flags 1 'N' ++ flagColumn flags 2 'X' ++ flagColumn flags 3 'Q'

/-! ### HARMONIC_TABLE (R157) -/

/-- Bytes of a channel entry of a HARMONIC record with `b` bins (R205). -/
def channelSize (b : Nat) : Nat := 10 + 6 * b

/-- The offset of the entry for a channel in a HARMONIC record's bytes, if it has one. -/
def channelOffset (bytes : List Byte) (chan : Nat) : Option Nat :=
  let size := channelSize (fieldOf bytes 15 1)
  ((List.range (fieldOf bytes 32 1)).map (fun j => 60 + j * size)).find? (fun o => fieldOf bytes o 1 == chan)

/-- The blocks of a HARMONIC record that hold its header and the entry for a channel, ascending (log 21). -/
def harmonicBlocks (bytes : List Byte) (chan : Nat) : List Nat :=
  match channelOffset bytes chan with
  | none => [0]
  | some o =>
    let last := (o + channelSize (fieldOf bytes 15 1) - 1) / 64
    (List.range (last + 1)).filter (fun b => b == 0 || decide (o / 64 ≤ b))

/-- The row of one bin (R157). -/
def binRow (bytes : List Byte) (entry j : Nat) : Text :=
  let o := entry + 10 + 6 * j
  ascii ['H'] ++ twoDigits (fieldOf bytes (34 + j) 1) ++ spaces 1 ++ field 5 (decimal (fieldOf bytes o 2)) ++ spaces 1 ++
    field 5 (decimal (fieldOf bytes (o + 2) 2)) ++ spaces 1 ++ field 7 (percent (fieldOf bytes (o + 4) 2))

/-- The rows of a HARMONIC_TABLE from its record's bytes (R157). -/
def harmonicRows (bytes : List Byte) (chan : Nat) : List Text :=
  let row1 :=
    items [ascii ['H', 'A', 'R', 'M', 'O', 'N', 'I', 'C', 'S'], chanText chan, ascii ['I', 'N', 'T'],
      decimal (fieldOf bytes 12 2)]
  match channelOffset bytes chan with
  | none => [row1, ascii ['(', 'n', 'o', 't', ' ', 'w', 'a', 't', 'c', 'h', 'e', 'd', ')']]
  | some o =>
    let freq :=
      if (bytes.getD 1 0).getLsbD 2 then [ascii ['N', 'O', 'N', 'E']]
      else [hertz (fieldOf bytes 28 4), ascii ['H', 'Z']]
    let row2 := items (ascii ['F'] :: freq ++ [ascii ['W', 'I', 'N'], decimal (fieldOf bytes 14 1)])
    let row3 :=
      items [ascii ['V', 'A', 'L', 'I', 'D'], decimal (fieldOf bytes (o + 2) 1), ascii ['V', 'O', 'I', 'D'],
        decimal (fieldOf bytes (o + 3) 1), ascii ['N', 'O', 'F', 'U', 'N', 'D'], decimal (fieldOf bytes (o + 4) 1)]
    if (bytes.getD (o + 1) 0).getLsbD 0 then
      [row1, row2, row3, ascii ['(', 'n', 'o', ' ', 'd', 'a', 't', 'a', ')']]
    else
      [row1, row2, row3] ++ (List.range (fieldOf bytes 15 1)).map (binRow bytes o) ++
        [items [ascii ['T', 'H', 'D'], percent (fieldOf bytes (o + 6) 2), percent (fieldOf bytes (o + 8) 2)]]

/-- The row of a HARMONIC_TABLE for a site with no HARMONIC record (R157). -/
def noHarmonicRow : Text :=
  ascii ['(', 'n', 'o', ' ', 'h', 'a', 'r', 'm', 'o', 'n', 'i', 'c', ' ', 'r', 'e', 'c', 'o', 'r', 'd', ')']

/-! ### NOTE_LIST (R158) -/

/-- Whether a note's tags match a filter (R142): the empty filter matches every note. -/
def tagsMatch (filter tags : BitVec 32) : Bool := filter == 0 || (filter &&& tags) != 0

/-- The codes of a tag set, ascending. -/
def tagCodes (tags : BitVec 32) : List Nat := (List.range 32).filter (fun k => tags.getLsbD k)

/-- Text cut into pieces of 32 characters (R158). -/
def pieces : Nat → Text → List Text
  | 0, _ => []
  | fuel + 1, t => if t.isEmpty then [] else t.take 32 :: pieces fuel (t.drop 32)

/-- A record kind's name. -/
def kindText : RecordKind → Text
  | .episode => ascii ['E', 'P', 'I', 'S', 'O', 'D', 'E']
  | .capture => ascii ['C', 'A', 'P', 'T', 'U', 'R', 'E']
  | .harmonic => ascii ['H', 'A', 'R', 'M', 'O', 'N', 'I', 'C']

/-- The row of a link (R158). -/
def linkRow (s : State) (l : Link) : Text :=
  items [ascii ['L', 'I', 'N', 'K'], decimal l.record,
    match l.status, s.entry l.record with
    | .live, some e => kindText e.kind
    | _, _ => ascii ['(', 'l', 'o', 's', 't', ')']]

/-- The rows of a note as it stands (R158). -/
def noteRows (s : State) (n : Note) : List Text :=
  [items [ascii ['N', 'O', 'T', 'E'], decimal n.id, ascii ['A', 'T'], decimal n.created],
    items (ascii ['T', 'A', 'G', 'S'] :: (if n.tags = 0 then [ascii ['-']] else (tagCodes n.tags).map decimal))] ++
    pieces (n.text.length + 1) n.text ++ n.links.map (linkRow s)

end Sys2Proof.Machine
end

