-- ==== Sys2Proof/Machine/Print.lean ====
section
/-! DEFINITION. The print engine's operations: jobs, the composer, the band buffer, the print timing generator (R148 to
R167). -/

namespace Sys2Proof.Machine

open Sys2Proof

/-! ### Small pieces -/

/-- The print engine changed. -/
def mapPrint (f : PrintEngine → PrintEngine) (s : State) : State := s.setPrint (f s.print)

namespace PrintEngine

/-- A band half. -/
def half (p : PrintEngine) (h : HalfName) : BandHalf :=
  match h with
  | .a => p.halfA
  | .b => p.halfB

/-- A band half replaced. -/
def setHalf (h : HalfName) (x : BandHalf) (p : PrintEngine) : PrintEngine :=
  match h with
  | .a => { p with halfA := x }
  | .b => { p with halfB := x }

/-- The head job changed. -/
def mapHead (f : Job → Job) (p : PrintEngine) : PrintEngine :=
  match p.jobs with
  | j :: rest => { p with jobs := f j :: rest }
  | [] => p

/-- The half the composer takes for a row: A when both are FREE (R159). -/
def freeHalf (p : PrintEngine) : Option HalfName :=
  if p.halfA = .free then some .a else if p.halfB = .free then some .b else none

/-- Whether the generator is HELD: L_t is 1 (R160). -/
def held (p : PrintEngine) : Bool := decide (p.timing.lt = 1)

end PrintEngine

/-- The other half. -/
def HalfName.other : HalfName → HalfName
  | .a => .b
  | .b => .a

/-- A half's row, if it is FULL. -/
def BandHalf.fullRow : BandHalf → Option Text
  | .full t => some t
  | .free => none
  | .filling => none
  | .sending _ => none

/-- The row a half holds, blank if it holds none. -/
def BandHalf.row : BandHalf → Text
  | .full t => t
  | .sending t => t
  | .free => []
  | .filling => []

/-! ### Holds (R110, R152, R155, R157) -/

/-- The record of the candidate being read. -/
def ComposerRead.held : ComposerRead → List Nat
  | .candidate id => [id]
  | .none => []
  | .episodeRow _ => []
  | .harmonic _ _ => []

/-- The records the composer holds. -/
def Composer.held (c : Composer) : List Nat := c.snapshot ++ c.harmonic.toList ++ c.read.held

/-- Every hold of the composer removed. -/
def releaseHolds (s : State) : State := s.print.composer.held.foldl (fun s id => removeHold id s) s

/-- A burst of the composer in progress goes on as a burst of a stopped holder (R113). -/
def stopBurst (s : State) : State :=
  match s.store.burst with
  | some (.composerRead _ _) => s.setStore { s.store with burst := some .stopped }
  | _ => s

/-! ### Activation and end of a job (R150) -/

/-- The composer as it begins a job: COMPOSING its first line. -/
def Composer.begin : Composer := { Composer.reset with state := .composing }

/-- The head job becomes ACTIVE if it is QUEUED, the generator is not HELD and no feed is in progress (R150). -/
def activateHead (s : State) : State :=
  let p := s.print
  match p.jobs with
  | j :: _ =>
    if j.state = .queued ∧ p.gen.mode ≠ .held ∧ p.gen.mode ≠ .feed then
      s.setPrint { p.mapHead (fun j => { j with state := .active }) with composer := Composer.begin }
    else s
  | [] => s

/-- An outcome joins the finished list of 8 (R148). -/
def PrintEngine.finish (j : Job) (final : FinalState) (cause : EndCause) (p : PrintEngine) : PrintEngine :=
  let all := p.finished ++ [⟨j.id, j.template, j.site, final, j.rows, cause⟩]
  { p with finished := all.drop (all.length - 8) }

/-- The generator with no period: IDLE, or HELD while L_t is 1 (R150, R160). -/
def restGen (p : PrintEngine) : Generator := ⟨if p.held then .held else .idle, .a, 0, 0, .paperFeed, none⟩

/-- The print engine with the head job's work cleared away: composer IDLE, halves FREE, strobe released, generator at
rest (R150). -/
def PrintEngine.clear (p : PrintEngine) : PrintEngine :=
  { p with composer := Composer.reset, halfA := .free, halfB := .free, strobe := false, gen := restGen p }

/-- The head job ends (R150). PRINT_STALL follows as the job leaves the queue, before PRINT_DONE is raised (R170). -/
def endJob (final : FinalState) (cause : EndCause) (s : State) : State :=
  match s.print.jobs with
  | [] => s
  | j :: rest =>
    let s1 := stopBurst (releaseHolds s)
    let s2 := s1.setPrint ({ s1.print.clear with jobs := rest } |>.finish j final cause)
    activateHead (raise 9 (followStall s2))

/-! ### Periods (R160 to R162) -/

/-- The dot line the next period sends. -/
def PrintEngine.nextLine (p : PrintEngine) : List Byte :=
  match p.gen.mode with
  | .band => dotLine (p.half p.gen.half).row p.gen.line
  | .feed => blankLine
  | .held => p.dots
  | .idle => p.dots

/-- A period begins: its timing is that of the table, and its line's 48 bytes are shifted out at tick 1 (R160). -/
def PrintEngine.startPeriod (p : PrintEngine) : PrintEngine :=
  { p with
    paper := .present
    dots := p.nextLine
    gen := { p.gen with period := some ⟨p.timing, 1, false, false, false, false⟩ } }

/-- The reply to a PRINT_CANCEL that is answered OK (R163). -/
def cancelReply (tag : BitVec 16) (j : Job) : Reply := ⟨tag, 29, .ok, false, .cancelled j.id j.rows⟩

/-- A deferred reply placed in the reply queue, or held by the print engine while the queue is full (R163). -/
def placeDeferred (r : Reply) (s : State) : State :=
  if s.dport.replyRoom then placeReplyFrame (.reply r) s
  else (s.setPrint { s.print with deferred := s.print.deferred ++ [r] }).setDport { s.dport with placeFreed := false }

/-- The deferred reply of the head job's pending cancel placed (R163). -/
def answerCancel (s : State) : State :=
  match s.print.jobs with
  | j :: _ =>
    match j.cancel with
    | .pending tag => placeDeferred (cancelReply tag j) s
    | .none => s
    | .feeding => s
  | [] => s

/-- A band period would begin while the paper line reads ABSENT: the job becomes STALLED, and a pending cancel takes
effect at once without feed rows (R162, R163, log 30), PRINT_STALL's condition not holding in between (log 52). -/
def stall (s : State) : State :=
  let s1 := s.setPrint ({ s.print with paper := .absent, gen := { s.print.gen with period := none } } |>.mapHead
    (fun j => { j with state := .stalled }))
  match s1.print.jobs with
  | j :: _ =>
    match j.cancel with
    | .pending _ => endJob .cancelled .cancelledByCommand (answerCancel s1)
    | .none => followStall s1
    | .feeding => followStall s1
  | [] => s1

/-- A band period begins, or the job stalls, by the paper line (R160, R162). The half begun becomes SENDING. -/
def startBandPeriod (paper : Paper) (s : State) : State :=
  match paper with
  | .absent => stall s
  | .present =>
    let p := s.print
    s.setPrint (p.setHalf p.gen.half (.sending (p.half p.gen.half).row)).startPeriod

/-- The generator enters BAND with a half from dot line 0 (R160). -/
def startBand (h : HalfName) (paper : Paper) (s : State) : State :=
  startBandPeriod paper (s.setPrint { s.print with gen := ⟨.band, h, 0, 0, .paperFeed, none⟩ })

/-- A feed ends: that of a cancel ends its job CANCELLED (R164); that of PAPER_FEED leaves the generator IDLE and R150 is
judged (R165). -/
def endFeed (s : State) : State :=
  match s.print.gen.feedFor with
  | .cancel => endJob .cancelled .cancelledByCommand s
  | .paperFeed => activateHead (s.setPrint { s.print with gen := restGen s.print })

/-- A feed line begins, or the feed ends because the paper line reads ABSENT (R164, R165). -/
def startFeedPeriod (paper : Paper) (s : State) : State :=
  match paper with
  | .absent => endFeed (s.setPrint { s.print with paper := .absent })
  | .present => s.setPrint s.print.startPeriod

/-- The generator enters FEED for a number of feed lines (R164, R165). -/
def startFeed (lines : Nat) (why : FeedFor) (paper : Paper) (s : State) : State :=
  startFeedPeriod paper (s.setPrint { s.print with gen := ⟨.feed, .a, 0, lines, why, none⟩ })

/-- The composer stopped by a cancel: IDLE, with the holds of its line kept as its snapshot (step 2 of R164, log 50). -/
def Composer.stop (c : Composer) : Composer := { Composer.reset with snapshot := c.held }

/-- A pending cancel takes effect at a row boundary (steps 2 to 4 of R164). -/
def cancelEffect (paper : Paper) (s : State) : State :=
  let s1 := stopBurst s
  let s2 := answerCancel (s1.setPrint { s1.print with
    composer := s1.print.composer.stop, halfA := .free, halfB := .free })
  startFeed 56 .cancel paper (s2.setPrint (s2.print.mapHead (fun j => { j with cancel := .feeding })))

/-- Whether the head job is ACTIVE. -/
def headActive (s : State) : Bool :=
  match s.print.jobs with
  | j :: _ => j.state == .active
  | [] => false

/-- Whether the head job's cancel is PENDING. -/
def cancelPending (s : State) : Bool :=
  match s.print.jobs with
  | j :: _ => (match j.cancel with | .pending _ => true | .none => false | .feeding => false)
  | [] => false

/-- A half has become FREE, or a row has completed: what the generator does by the other half's state (R159, R160). -/
def rowBoundary (paper : Paper) (s : State) : State :=
  let p := s.print
  let h := p.gen.half
  match (p.half h.other).fullRow with
  | some _ => startBand h.other paper s
  | none =>
    if p.composer.state = .finished then endJob .done .completed s
    else s.setPrint { p with gen := restGen p, underruns := bump p.underruns }

/-- Dot line 27 of the SENDING half completes: the row is counted and the half becomes FREE (R159, R160, R164). -/
def completeRow (paper : Paper) (s : State) : State :=
  let p := s.print
  let q : PrintEngine :=
    (p.mapHead (fun j => { j with rows := if j.rows < 65535 then j.rows + 1 else j.rows })).setHalf p.gen.half .free
  let s1 := s.setPrint { q with gen := { q.gen with period := none } }
  if cancelPending s1 then cancelEffect paper s1 else rowBoundary paper s1

/-- A period ends (R160). -/
def endPeriod (paper : Paper) (s : State) : State :=
  let p := s.print
  match p.gen.mode with
  | .band =>
    if p.gen.line < 27 then
      startBandPeriod paper (s.setPrint { p with gen := { p.gen with line := p.gen.line + 1, period := none } })
    else completeRow paper s
  | .feed =>
    let s1 := s.setPrint { p with gen := { p.gen with feedLeft := p.gen.feedLeft - 1, period := none } }
    if p.gen.feedLeft ≤ 1 then endFeed s1 else startFeedPeriod paper s1
  | .held => s
  | .idle => s

/-! ### The composer (R152 to R158) -/

/-- The head job and its current line, while the composer is COMPOSING. -/
def currentLine (s : State) : Option (Job × TemplateLine) :=
  match s.print.composer.state, s.print.jobs with
  | .composing, j :: _ => ((s.print.templates.get j.template)[s.print.composer.line]?).map (fun l => (j, l))
  | _, _ => none

/-- The composer changed. -/
def mapComposer (f : Composer → Composer) (s : State) : State := s.setPrint { s.print with composer := f s.print.composer }

/-- The next candidate of an EPISODE_LIST (step 1 of R155). -/
def nextCandidate (site after : Nat) (s : State) : Option DirEntry :=
  s.store.dir.find? (fun e => decide (after < e.id) && e.state == .complete && e.kind == .episode && e.site == site)

/-- The newest COMPLETE HARMONIC entry of a site (R157). -/
def newestHarmonic (site : Nat) (s : State) : Option DirEntry :=
  s.store.dir.reverse.find? (fun e => e.state == .complete && e.kind == .harmonic && e.site == site)

/-- The bytes of a record by its id. -/
def recordBytes (id : Nat) (s : State) : List Byte :=
  match s.entry id with
  | some e => entryBytes s e
  | none => []

/-- A line begins (R152): a HARMONIC_TABLE holds its record and is to read its blocks (R157); a NOTE_LIST makes its list
(R158). -/
def beginLine (j : Job) (line : TemplateLine) (s : State) : State :=
  let s1 := mapComposer (fun c => { c with begun := true, rows := 0 }) s
  match line with
  | .harmonicTable chan =>
    match newestHarmonic j.site s1 with
    | none => s1
    | some e =>
      mapComposer (fun c => { c with
        harmonic := some e.id, read := .harmonic e.id (harmonicBlocks (entryBytes s1 e) chan) }) (placeHold e.id s1)
  | .noteList filter =>
    let ids := (s1.sites.notes.filter (fun n => n.site == j.site && tagsMatch filter n.tags)).map (fun n => n.id)
    mapComposer (fun c => { c with notes := ids, noteRow := 0 }) s1
  | _ => s1

/-- What the composer does next with the half it fills. -/
inductive Plan where
  | row (t : Text)
  | hold (e : DirEntry)
  | read (r : ComposerRead)
  | nothing
deriving DecidableEq, Repr

/-- The notes of the list that still yield a row, with the row index in the first, and that row (R158). The position is kept
as a row index while links are made and unlinked (log 49), and a note is known by its id alone (log 68). -/
def noteNext (s : State) : List Nat → Nat → Option (List Nat × Nat × Text)
  | [], _ => none
  | id :: rest, r =>
    match s.sites.notes.find? (fun n => n.id == id) with
    | none => noteNext s rest 0
    | some n =>
      match (noteRows s n)[r]? with
      | some t => some (id :: rest, r, t)
      | none => noteNext s rest 0

/-- The next row of a line, or the read it needs (R154 to R158). -/
def plan (j : Job) (line : TemplateLine) (s : State) : Plan :=
  let c := s.print.composer
  match line with
  | .text t => .row t
  | .rule => .row (List.replicate 32 0x2D#8)
  | .feed _ => .row []
  | .unknown _ => .row []
  | .siteHeader =>
    match s.site j.site with
    | some e => .row (siteRow e c.rows)
    | none => .row []
  | .episodeList minDepth maxRows =>
    if c.rows = 0 then
      match nextCandidate j.site c.lastCandidate s with
      | some e => if c.snapshot.length < maxRows then .hold e else .row (episodeHeading minDepth)
      | none => .row (episodeHeading minDepth)
    else
      match c.snapshot[c.rows - 1]? with
      | none => .row noneRow
      | some id => if (s.completeEntry id).isSome then .read (.episodeRow id) else .row (lostRow id)
  | .harmonicTable chan =>
    match c.harmonic with
    | none => .row noHarmonicRow
    | some id => .row ((harmonicRows (recordBytes id s) chan).getD c.rows [])
  | .noteList _ =>
    match noteNext s c.notes c.noteRow with
    | some (_, _, t) => .row t
    | none => if c.rows = 0 then .row noneRow else .nothing

/-- Whether a line has no row left, once `rows` of it are rendered. -/
def lineDone (line : TemplateLine) (s : State) : Bool :=
  let c := s.print.composer
  match line with
  | .text _ => true
  | .rule => true
  | .unknown _ => true
  | .feed n => decide (n ≤ c.rows)
  | .siteHeader => decide (5 ≤ c.rows)
  | .episodeList _ _ => decide (max 1 c.snapshot.length + 1 ≤ c.rows)
  | .harmonicTable chan =>
    match c.harmonic with
    | none => true
    | some id => decide ((harmonicRows (recordBytes id s) chan).length ≤ c.rows)
  | .noteList _ => (noteNext s c.notes c.noteRow).isNone

/-- A line is finished: its holds are removed, and the next line becomes current or the composer FINISHED (R152), which keeps
the last line's index (log 64). -/
def finishLine (s : State) : State :=
  let s1 := releaseHolds s
  let lines : Nat := match s1.print.jobs with | j :: _ => (s1.print.templates.get j.template).length | [] => 0
  mapComposer
    (fun c =>
      { Composer.reset with
        state := if c.line + 1 < lines then .composing else .finished
        line := if c.line + 1 < lines then c.line + 1 else c.line
        half := c.half })
    s1

/-- The position in the note list moved past the row just rendered (R158). -/
def stepNote (line : TemplateLine) (s : State) : State :=
  match line with
  | .noteList _ =>
    match noteNext s s.print.composer.notes s.print.composer.noteRow with
    | some (ids, r, _) => mapComposer (fun c => { c with notes := ids, noteRow := r + 1 }) s
    | none => s
  | _ => s

/-- The generator begins a half that has become FULL while it is IDLE and the head job ACTIVE (R160). -/
def feedGenerator (h : HalfName) (paper : Paper) (s : State) : State :=
  if s.print.gen.mode = .idle ∧ headActive s then startBand h paper s else s

/-- A row rendered: its half becomes FULL, the line is finished if it was its last row, and an IDLE generator begins the
half (R152, R159, R160). -/
def rowFull (line : TemplateLine) (t : Text) (paper : Paper) (s : State) : State :=
  let h := s.print.composer.half
  let s1 := s.setPrint (s.print.setHalf h (.full (row t)))
  let s2 := mapComposer (fun c => { c with rows := c.rows + 1 }) (stepNote line s1)
  feedGenerator h paper (if lineDone line s2 then finishLine s2 else s2)

/-- The composer FINISHED with a half it did not fill: the half is FREE again, and a job whose last row has been printed
already ends DONE (log 25). -/
def finishedEarly (s : State) : State :=
  let s1 := s.setPrint (s.print.setHalf s.print.composer.half .free)
  if s1.print.gen.mode = .idle ∧ headActive s1 then endJob .done .completed s1 else s1

/-- The composer goes on with the half it has taken: it begins the line if due, and renders a row or asks for a read
(R152). A line of notes that yields no further row is finished, and the next line goes on with the same half. -/
def composerGo (paper : Paper) : Nat → State → State
  | 0, s => s
  | fuel + 1, s =>
    match currentLine s with
    | none => s
    | some (j, line) =>
      let s1 := if s.print.composer.begun then s else beginLine j line s
      if s1.print.composer.read = .none then
        match plan j line s1 with
        | .row t => rowFull line t paper s1
        | .hold e => mapComposer (fun c => { c with read := .candidate e.id }) (placeHold e.id s1)
        | .read r => mapComposer (fun c => { c with read := r }) s1
        | .nothing =>
          let s2 := finishLine s1
          if s2.print.composer.state = .finished then finishedEarly s2 else composerGo paper fuel s2
      else s1

/-- The longest template (R145) bounds how many lines one call goes through. -/
def composerFuel : Nat := 33

/-- The composer takes a FREE half for its next row (R152): none while it waits for a read or has nothing to render. -/
def composerTake (paper : Paper) (s : State) : State :=
  if s.print.composer.state = .composing ∧ s.print.composer.read = .none then
    match s.print.freeHalf with
    | none => s
    | some h =>
      composerGo paper composerFuel
        (mapComposer (fun c => { c with half := h }) (s.setPrint (s.print.setHalf h .filling)))
  else s

/-- A candidate's first block has been read (steps 3 and 4 of R155). -/
def judgeCandidate (id minDepth : Nat) (block : List Byte) (s : State) : State :=
  if minDepth ≤ depthOf block then
    mapComposer (fun c => { c with snapshot := c.snapshot ++ [id], lastCandidate := id, read := .none }) s
  else mapComposer (fun c => { c with lastCandidate := id, read := .none }) (removeHold id s)

/-- The minimum depth of an EPISODE_LIST line. -/
def minDepthOf : TemplateLine → Nat
  | .episodeList d _ => d
  | _ => 0

/-- The composer takes the block that its burst has read, and goes on with its row (R155 to R157). -/
def composerTakeBlock (paper : Paper) (block : List Byte) (s : State) : State :=
  match currentLine s with
  | none => s
  | some (_, line) =>
    match s.print.composer.read with
    | .none => s
    | .candidate id => composerGo paper composerFuel (judgeCandidate id (minDepthOf line) block s)
    | .episodeRow id =>
      rowFull line (if (s.completeEntry id).isSome then episodeRow block else lostRow id) paper
        (mapComposer (fun c => { c with read := .none }) s)
    | .harmonic id (_ :: b :: rest) => mapComposer (fun c => { c with read := .harmonic id (b :: rest) }) s
    | .harmonic _ _ => composerGo paper composerFuel (mapComposer (fun c => { c with read := .none }) s)

/-- The block that the composer asks the port for. -/
def ComposerRead.want : ComposerRead → Option (Nat × Nat)
  | .none => Option.none
  | .candidate id => some (id, 0)
  | .episodeRow id => some (id, 0)
  | .harmonic _ [] => Option.none
  | .harmonic id (b :: _) => some (id, b)

end Sys2Proof.Machine
end

