-- ==== Sys2Proof/Machine/Arbiter.lean ====
section
/-! DEFINITION. The store arbiter, its bursts, the record writers' completions and the readout (R54, R55, R98, R99, R107,
R108, R112 to R119). -/

namespace Sys2Proof.Machine

open Sys2Proof

/-- The store changed. -/
def mapStore (f : Store → Store) (s : State) : State := s.setStore (f s.store)

/-! ### Who waits (R112, R114) -/

/-- Whether a slot's capture has something to move: entries in staging, or its header in CLOSING once everything is
drained (R114). -/
def CaptureSlot.work (c : CaptureSlot) : Bool :=
  match c.phase with
  | .idle => false
  | .closing => !c.staging.isEmpty || (c.unblocked && c.heldRun == 0)
  | .pre => !c.staging.isEmpty
  | .during => !c.staging.isEmpty
  | .trend => !c.staging.isEmpty
  | .post => !c.staging.isEmpty

/-- The slots in the order the capture writer serves them (R114). -/
def slotsAfter (i : Slot) : List Slot := [1, 2, 3, 4].map (fun k => ⟨(i.val + k) % 4, Nat.mod_lt _ (by decide)⟩)

/-- The slot the capture writer serves next. -/
def nextSlot (s : State) : Option Slot := (slotsAfter s.store.lastSlot).find? (fun i => (s.cap i).work)

/-- Whether the primary has something to move. -/
def primaryWaits (s : State) : Bool := (nextSlot s).isSome

/-- Whether a secondary has a burst to move (R112). -/
def secondaryWaits (s : State) (x : Secondary) : Bool :=
  match x with
  | .episode => s.episodes.writer.isSome
  | .harmonic => s.harmonic.writer.isSome
  | .composer => s.print.composer.read.want.isSome
  | .readout => s.store.readout.state == .reading && s.store.readout.asking

/-- The secondaries in rotation after one of them, itself last (R112). -/
def rotation : Secondary → List Secondary
  | .episode => [.harmonic, .composer, .readout, .episode]
  | .harmonic => [.composer, .readout, .episode, .harmonic]
  | .composer => [.readout, .episode, .harmonic, .composer]
  | .readout => [.episode, .harmonic, .composer, .readout]

/-- The first waiting secondary in rotation after one of them (R113). -/
def nextSecondary (s : State) (x : Secondary) : Option Secondary := (rotation x).find? (secondaryWaits s)

/-- A quota of 0 is taken as 1 (R115). -/
def quota (q : Nat) : Nat := if q = 0 then 1 else q

/-! ### Starting a burst (R106, R108, R114, R118) -/

/-- A burst of capture entries begins: they leave staging for the burst. Log 41. -/
def beginItems (i : Slot) (taken rest : List StagedItem) (s : State) : State :=
  mapStore (fun st => { st with burst := some (.captureItems i taken), lastSlot := i })
    (s.setCap i { s.cap i with staging := rest })

/-- The capture writer starts its next burst, asking for a page when the burst would run past the chain (R106, R114); a
refused page truncates the capture, and the writer judges again (R73). Within a page a burst may run over a block boundary
(log 47). -/
def startCaptureBurst : Nat → State → State
  | 0, s => s
  | fuel + 1, s =>
    match nextSlot s with
    | none => mapStore (fun st => { st with holder := .none, burst := none }) s
    | some i =>
      let c := s.cap i
      match c.recordId with
      | none => s
      | some id =>
        match s.entry id with
        | none => s
        | some e =>
          if c.staging.isEmpty then mapStore (fun st => { st with burst := some (.captureHeader i), lastSlot := i }) s
          else
            let x := splitFit 64 c.staging
            if e.length + itemsSize x.1 ≤ e.chain.length * 1024 then beginItems i x.1 x.2 s
            else
              match growCapture id s with
              | (s1, true) => beginItems i x.1 x.2 s1
              | (s1, false) =>
                startCaptureBurst fuel (s1.setCap i ((s1.cap i).truncate (e.chain.length * 1024 - e.length)))

/-- An admitted record as its next burst is made: the burst of the first block takes the next id (R108). -/
def takeId (block : Nat) (a : Admitted) (s : State) : State × Admitted :=
  if block = 0 then (mapStore (fun st => { st with nextId := st.nextId + 1 }) s, { a with id := some s.store.nextId })
  else (s, a)

/-- The episode writer starts its next burst (R107, R108). -/
def startEpisodeBurst (s : State) : State :=
  match s.episodes.writer, s.episodes.outbox with
  | some a, r :: _ =>
    let b := nextBlock r.length a.burstsMade
    let x := takeId b a s
    mapStore (fun st => { st with burst := some (.episodeBlock b) })
      (x.1.setEpisodes { x.1.episodes with writer := some x.2 })
  | _, _ => s

/-- The harmonic writer starts its next burst (R107, R108). -/
def startHarmonicBurst (s : State) : State :=
  match s.harmonic.writer, s.harmonic.outbox with
  | some a, r :: _ =>
    let b := nextBlock r.length a.burstsMade
    let x := takeId b a s
    mapStore (fun st => { st with burst := some (.harmonicBlock b) })
      (x.1.setHarmonic { x.1.harmonic with writer := some x.2 })
  | _, _ => s

/-- A secondary starts its next burst. -/
def startSecondaryBurst (x : Secondary) (s : State) : State :=
  match x with
  | .episode => startEpisodeBurst s
  | .harmonic => startHarmonicBurst s
  | .composer =>
    match s.print.composer.read.want with
    | some (id, b) => mapStore (fun st => { st with burst := some (.composerRead id b) }) s
    | none => s
  | .readout => mapStore (fun st => { st with burst := some .readoutRead }) s

/-- Truncating each capture once, and the burst that follows, bound the tries of one start. -/
def captureFuel : Nat := 9

/-! ### Grants (R113) -/

/-- The primary is granted the port. -/
def grantPrimary (s : State) : State :=
  startCaptureBurst captureFuel (mapStore (fun st => { st with holder := .primary, used := 0 }) s)

/-- A secondary is granted the port, and becomes the last served. -/
def grantSecondary (x : Secondary) (s : State) : State :=
  startSecondaryBurst x (mapStore (fun st => { st with holder := .secondary x, used := 0, lastServed := x }) s)

/-- The holder becomes none. -/
def release (s : State) : State := mapStore (fun st => { st with holder := .none }) s

/-- A requester has started waiting: with the holder none, the port is granted (R113). -/
def arbitrate (s : State) : State :=
  if s.store.holder = .none then
    if primaryWaits s then grantPrimary s
    else
      match nextSecondary s s.store.lastServed with
      | some x => grantSecondary x s
      | none => s
  else s

/-- The primary's burst has ended (R113). -/
def afterPrimary (s : State) : State :=
  let more := primaryWaits s
  if s.store.used < quota s.store.qp ∧ more then startCaptureBurst captureFuel s
  else
    match nextSecondary s s.store.lastServed with
    | some x => grantSecondary x s
    | none => if more then grantPrimary s else release s

/-- A secondary's burst has ended; `stopped` says its holder was stopped while it ran (R113). -/
def afterSecondary (x : Secondary) (stopped : Bool) (s : State) : State :=
  if s.store.used < quota s.store.qs ∧ secondaryWaits s x ∧ stopped = false then startSecondaryBurst x s
  else if primaryWaits s then grantPrimary s
  else
    match nextSecondary s x with
    | some y => grantSecondary y s
    | none => release s

/-! ### Ends of bursts -/

/-- A burst of capture entries ends: its bytes stand at the entry's length, which grows by them (R106). -/
def endItems (i : Slot) (taken : List StagedItem) (s : State) : State :=
  match (s.cap i).recordId with
  | none => s
  | some id =>
    match s.entry id with
    | none => s
    | some e =>
      let bytes := taken.flatMap (fun x => itemBytes x.item)
      updateEntry id (fun d => { d with length := d.length + bytes.length })
        (mapStore (fun st => { st with mem := writeRecord st.mem e.chain e.length bytes }) s)

/-- A block of an admitted record written into its claimed pages (R107). -/
def writeBlock (a : Admitted) (b : Nat) (bytes : List Byte) (s : State) : State :=
  mapStore (fun st => { st with mem := writeRecord st.mem a.pages (64 * b) (blockOf bytes b) }) s

/-- A completed EPISODE record queued downstream, if auto-send is set: all its frames or none (R55). -/
def autoSend (id : Nat) (bytes : List Byte) (s : State) : State :=
  if s.survey.autoSend then
    let frames := recordFrames id (bytes.length / 512 + 1) 0 bytes
    if s.dport.record.length + frames.length ≤ 32 then s.setDport (s.dport.placeRecords frames)
    else s.setEpisodes { s.episodes with skips := bump s.episodes.skips }
  else s

/-- A completed HARMONIC record copied to the periodic queue, which pushes the older of two out (R99). Log 40. -/
def queuePeriodic (r : RecordCopy) (s : State) : State :=
  let put (s : State) : State := s.setDport ({ s.dport with periodic := s.dport.periodic ++ [r] } : DPort).kick
  match s.dport.periodic with
  | _ :: b :: _ =>
    put (raise 3 ((s.setDport { s.dport with periodic := [b] }).setHarmonic
      { s.harmonic with late := bump s.harmonic.late }))
  | _ => put s

/-- A block of the oldest EPISODE record ends; the first block, written last, completes the record (R54, R108). -/
def endEpisodeBlock (b : Nat) (s : State) : State :=
  match s.episodes.writer, s.episodes.outbox with
  | some a, r :: rest =>
    let id := a.id.getD 0
    let bytes := episodeBytes r id
    let s1 := writeBlock a b bytes s
    if b = 0 then
      let s2 := s1.setEpisodes { s1.episodes with writer := none, outbox := rest }
      autoSend id bytes (fileRecord .episode r.site r.length r.start r.flags.pack a id s2)
    else s1.setEpisodes { s1.episodes with writer := some { a with burstsMade := a.burstsMade + 1 } }
  | _, _ => s

/-- A block of the oldest HARMONIC record ends (R98, R108). -/
def endHarmonicBlock (b : Nat) (s : State) : State :=
  match s.harmonic.writer, s.harmonic.outbox with
  | some a, r :: rest =>
    let id := a.id.getD 0
    let bytes := harmonicBytes r id
    let s1 := writeBlock a b bytes s
    if b = 0 then
      let s2 := s1.setHarmonic { s1.harmonic with writer := none, outbox := rest }
      queuePeriodic ⟨id, bytes⟩ (fileRecord .harmonic r.site r.length r.start r.flags.pack a id s2)
    else s1.setHarmonic { s1.harmonic with writer := some { a with burstsMade := a.burstsMade + 1 } }
  | _, _ => s

/-! ### The readout (R117 to R119) -/

/-- The length of the record being read out. -/
def readoutLength (s : State) : Nat :=
  match s.entry s.store.readout.id with
  | some e => e.length
  | none => 0

/-- A readout whose buffer holds 512 bytes, or the record's last byte, becomes PLACING (R119). -/
def Readout.judge (length : Nat) (r : Readout) : Readout :=
  if r.buffer.length = 512 ∨ length ≤ r.frameOffset + r.buffer.length then { r with state := .placing }
  else { r with state := .reading }

/-- Bytes that a burst has kept taken into the buffer, those beyond the 512th into the carry-over (R118). -/
def Readout.take (length : Nat) (bytes : List Byte) (r : Readout) : Readout :=
  let all := r.buffer ++ bytes
  ({ r with next := r.next + bytes.length, buffer := all.take 512, carry := all.drop 512 } : Readout).judge length

/-- The bytes that a readout's burst keeps: from the next offset to the end of its block or of the record (R118). -/
def readoutKeep (length next : Nat) : Nat := min length ((next / 64 + 1) * 64) - next

/-- A readout burst ends (R118). -/
def endReadoutRead (s : State) : State :=
  match s.entry s.store.readout.id with
  | none => s
  | some e =>
    let r := s.store.readout
    mapStore (fun st => { st with
      readout := r.take e.length (readRecord st.mem e.chain r.next (readoutKeep e.length r.next)) }) s

/-- The readout's frame placed in the record queue (R119). -/
def placeReadoutFrame (s : State) : State :=
  let r := s.store.readout
  let last := decide (readoutLength s ≤ r.frameOffset + r.buffer.length)
  let s1 := s.setDport (s.dport.placeRecords [⟨r.id, r.frameOffset, last, r.buffer⟩])
  if last then removeHold r.id (mapStore (fun st => { st with readout := Readout.reset }) s1)
  else
    mapStore (fun st => { st with
      readout := ({ r with frameOffset := r.frameOffset + r.buffer.length, buffer := r.carry, carry := [] } : Readout).judge
        (readoutLength s) }) s1

/-- Whether the record queue takes a frame of the readout: at least 4 free places, and HOLD not in force (R119). -/
def readoutRoom (s : State) : Bool := decide (s.dport.record.length + 4 ≤ 32) && !s.dport.hold

/-! ### The end of a burst (R113) -/

/-- What the end of a burst moves and completes. -/
def finishBurst (b : Burst) (paper : Paper) (s : State) : State :=
  match b with
  | .captureItems i taken => endItems i taken s
  | .captureHeader i => completeCapture i s
  | .episodeBlock b => endEpisodeBlock b s
  | .harmonicBlock b => endHarmonicBlock b s
  | .composerRead id b =>
    match s.entry id with
    | some e => composerTakeBlock paper (readRecord s.store.mem e.chain (64 * b) 64) s
    | none => s
  | .readoutRead => endReadoutRead s
  | .stopped => s

/-- A burst ends, and the arbiter decides who goes on (R113). -/
def endBurst (b : Burst) (paper : Paper) (s : State) : State :=
  let s1 := finishBurst b paper (mapStore (fun st => { st with burst := none }) s)
  let s2 := mapStore (fun st => { st with used := st.used + 1 }) s1
  match s2.store.holder with
  | .none => arbitrate s2
  | .primary => afterPrimary s2
  | .secondary x => afterSecondary x (b == .stopped) s2

end Sys2Proof.Machine
end

