-- ==== Sys2Proof/Machine/Command.lean ====
section
/-! DEFINITION. The command unit: taking a command, judging its envelope, placing its reply (R195 to R197). -/

namespace Sys2Proof.Machine

open Sys2Proof

/-! ### Outcomes -/

/-- What a command's rule decides: the part after it, the outcome code, the TRUNCATED flag and the reply's body. -/
structure Verdict where
  state : State
  outcome : OutcomeCode
  truncated : Bool
  body : ReplyBody
deriving DecidableEq, Repr

/-- A refusal: it changes nothing, and its body is empty (R195). Its TRUNCATED flag is clear, also where a text field is over
its limit (log 62). -/
def refuse (o : OutcomeCode) (s : State) : Verdict := ⟨s, o, false, .empty⟩

/-- A command carried out with results. -/
def done (body : ReplyBody) (s : State) : Verdict := ⟨s, .ok, false, body⟩

/-- A refused TABLE_LOAD that names the first failing index (R195, R198). -/
def badTable (i : Nat) (s : State) : Verdict := ⟨s, .badTable, false, .failing i⟩

/-- The rules that refuse with PARKED while the part is parked. -/
def unlessParked (f : State → Verdict) (s : State) : Verdict := if s.parked then refuse .parked s else f s

/-! ### Replies (R187, R197) -/

/-- The running command is finished: the head frame leaves the queue to be run (R196, R197). -/
def CommandUnit.finish (c : CommandUnit) : CommandUnit :=
  match c.next, c.queue with
  | none, d :: rest => { c with queue := rest, next := some d, running := none, waiting := none }
  | _, _ => { c with running := none, waiting := none }

/-- A reply placed in the reply queue, which finishes its command, or waiting in the command unit while the queue is full
(R197). -/
def answer (r : Reply) (s : State) : State :=
  if s.dport.replyRoom then placeReplyFrame (.reply r) (s.setCmd s.cmd.finish)
  else
    (s.setCmd { s.cmd with waiting := some r, running := some (r.tag, r.code) }).setDport
      { s.dport with placeFreed := false }

/-! ### Taking (R196, R197) -/

/-- Whether the command unit can take a command: nothing is running and no reply waits (R197). -/
def commandIdle (s : State) : Bool := s.cmd.running.isNone && s.cmd.waiting.isNone

/-- A command as its COMMAND frame carries it: the levels of the printer's lines that some rows bring are those of the
moment at which the command is taken, and no part of the frame (log 9). -/
def asSent : Instr → Instr
  | .status e sel => .status ⟨e.toEnvelope, .present, .ok⟩ sel
  | .printCancel e job => .printCancel ⟨e.toEnvelope, .present, .ok⟩ job
  | .printList e => .printList ⟨e.toEnvelope, .present, .ok⟩
  | .paperFeed e n => .paperFeed ⟨e.toEnvelope, .present, .ok⟩ n
  | c => c

/-- The part as it takes a command: the command is the frame that has left the queue to be run, or it arrives with nothing
queued and is run at once; none if the command's moment has not come (log 2). -/
def takeCommand (c : Instr) (s : State) : Option State :=
  if commandIdle s then
    match s.cmd.next, s.cmd.queue with
    | none, [] => some s
    | none, _ :: _ => none
    | some d, _ => if asSent d = asSent c then some (s.setCmd { s.cmd with next := none }) else none
  else none

/-- A command run: taken, judged, and answered with its tag and code (R195, R197). A wrong parameter length refuses it
with BAD_PARAM before its own rule judges it. -/
def runCommand (c : Instr) (e : Envelope) (code : Byte) (judge : State → Verdict) (s : State) : State :=
  match takeCommand c s with
  | none => s
  | some s1 =>
    let v := if e.lengthOk then judge s1 else refuse .badParam s1
    answer ⟨e.tag, code, v.outcome, v.truncated, v.body⟩ v.state

/-! ### Arrival (R183, R196) -/

/-- Whether a row is a command of the crew computer. -/
def isCommand : Instr → Bool
  | .powerOn => false
  | .instantAdvance => false
  | .surveyClockTick => false
  | .debounceTimerExpiry _ => false
  | .quietTimerExpiry _ => false
  | .sample _ => false
  | .controlFrameReceive _ => false
  | .uFrameReject _ => false
  | .attach => false
  | .statusFrame => false
  | .podNotice => false
  | .podReply => false
  | .laneInstant _ => false
  | .capturePreRead _ => false
  | .heldGapRunPlace _ => false
  | .episodeWriteStart => false
  | .harmonicWriteStart => false
  | .storeBurstEnd _ => false
  | .readoutFramePlace => false
  | .composerRow _ => false
  | .printPeriodEnd _ => false
  | .strobeStart _ => false
  | .strobeEnd => false
  | .motorStep => false
  | .headOk => false
  | .paperPresent => false
  | .offerRetry => false
  | .replyPlace => false
  | .deferredReplyPlace => false
  | .dFrameEnd => false
  | .uFrameEnd => false
  | .command _ => false
  | .dFrameReject _ => false
  | _ => true

/-- A COMMAND frame handed over by the D-port intake: it leaves the queue to be run at once when nothing runs and no other
frame is to be run, and is otherwise appended to the queue of 4, or dropped as a command overflow (R196). -/
def arrive (c : Instr) (s : State) : State :=
  if commandIdle s && s.cmd.next.isNone && s.cmd.queue.isEmpty then s.setCmd { s.cmd with next := some (asSent c) }
  else if s.cmd.queue.length < 4 then s.setCmd { s.cmd with queue := s.cmd.queue ++ [asSent c] }
  else raise 11 (s.setCmd { s.cmd with overflows := bump s.cmd.overflows })

/-! ### The waiting reply (R187, R197) -/

/-- The waiting reply placed, which finishes its command. An OK reply to RECORD_READ lets the readout ask for the port
(R117). -/
def placeWaiting (r : Reply) (s : State) : State :=
  placeReplyFrame (.reply r) ((s.setCmd s.cmd.finish).setDport
    { s.dport with placeFreed := false })

/-- The readout starts asking for the port once the OK reply to its RECORD_READ has been placed (R117). -/
def startAsking (r : Reply) (s : State) : State :=
  match r.body with
  | .readout _ _ => arbitrate (mapStore (fun st => { st with readout := { st.readout with asking := true } }) s)
  | _ => s

end Sys2Proof.Machine
end

