-- ==== Sys2Proof/Machine/EventRows.lean ====
section
/-! DEFINITION. The rows of power, clocks, timers, the U-port and the lanes. A row whose moment has not come leaves the part
unchanged (log 1). -/

namespace Sys2Proof.Machine

open Sys2Proof

/-! ### Power and clocks -/

/-- POWER_ON (R203): every block in its starting state. The queue of rows is not the part's. -/
def afterPowerOn (s : State) : State := State.reset.setPending s.pending

/-- The instant counter after a period of the sample clock (R14). Log 29. -/
def nextInstant (n : Nat) : Nat := (n + 1) % 281474976710656

/-- INSTANT_ADVANCE (R14, R22, R33): the counter advances, FREE decides the passed instant, and a reference lane that has
fallen too far behind hands over. While parked the sample clock is stopped. -/
def afterInstantAdvance (s : State) : State :=
  if s.parked then s
  else
    let s1 := s.setInstant (nextInstant s.instant)
    judgeStalled (if s.tracker.mode = .free then decideFree s1 s.instant else s1)

/-- SURVEY_CLOCK_TICK (R200): parked or not, the count advances by one and wraps. -/
def afterSurveyClockTick (s : State) : State :=
  s.setClock { s.clock with seconds := (s.clock.seconds + 1) % 4294967296, fraction := 0 }

/-! ### Timers -/

/-- DEBOUNCE_TIMER_EXPIRY (R3). -/
def afterDebounceTimerExpiry (i : Slot) (s : State) : State :=
  if (s.slot i).phase = .debounce then debounceFails i s else s

/-- QUIET_TIMER_EXPIRY (R6, R7). -/
def afterQuietTimerExpiry (i : Slot) (s : State) : State :=
  if s.isActive i then arbitrate (endSessions [i] .quiet s) else s

/-! ### SAMPLE (R12) -/

/-- A frame dropped for want of room in the ingress queue (test 4 of R12). -/
def dropSample (i : Slot) (s : State) : State :=
  raise 10 (s.setSlot i { s.slot i with ingressDrops := bump (s.slot i).ingressDrops })

/-- A frame accepted into the ingress queue with its extended first instant (R12, R186). -/
def acceptSample (f : SampleFrame) (v : Nat) (s : State) : State :=
  let p := s.slot f.slot
  let s1 := s.setSlot f.slot
    { p with ingress := p.ingress ++ [⟨f.sets.length, v, f.sets, false⟩], lastSeq := some f.seq }
  if p.passthrough then s1.setDport (s1.dport.offerPassthrough f) else s1

/-- A SAMPLE frame judged by the tests of R12. -/
def judgeSample (f : SampleFrame) (s : State) : State :=
  let p := s.slot f.slot
  if p.phase = .active then
    match extendInstant s.instant f.first with
    | none => countStray s
    | some v =>
      if s.instant < v + f.sets.length then countStray s
      else if p.lastSeq = some f.seq then countStray s
      else if 1024 < ingressUsed p.ingress + 136 then dropSample f.slot s
      else acceptSample f v s
  else countStray s

/-- SAMPLE (R6, R12, R182): the quiet timer of an ACTIVE slot restarts, then the frame is judged. A frame of no set or of
more than 16 does not pass intake (R181), and is no such row. -/
def afterSample (f : SampleFrame) (s : State) : State :=
  if 1 ≤ f.sets.length ∧ f.sets.length ≤ 16 then
    judgeSample f (if s.isActive f.slot then restartQuiet f.slot s else s)
  else s

/-! ### Control frames (R9 to R11, R182) -/

/-- CONTROL_FRAME_RECEIVE (R6, R9, R182). -/
def afterControlFrameReceive (f : ControlFrame) (s : State) : State :=
  let s1 := match frameSlot s f with | some i => restartQuiet i s | none => s
  if s1.session.control.length < 8 then s1.setSession { s1.session with control := s1.session.control ++ [f] }
  else s1.setSession { s1.session with controlDrops := bump s1.session.controlDrops }

/-- U_FRAME_REJECT (R181, R193). A frame that passes the tests is no such row. -/
def afterUFrameReject (f : LineFrame) (s : State) : State :=
  match judgeUp f with
  | some .crc => s.setDport { s.dport with crcErrorsU := bump s.dport.crcErrorsU }
  | some .frame => s.setDport { s.dport with frameErrorsU := bump s.dport.frameErrorsU }
  | none => s

/-- ATTACH (R2 to R4), at the head of the control queue. -/
def afterAttach (s : State) : State :=
  match s.session.control with
  | .attach serial kinds :: _ => takeAttach serial kinds (dropControl s)
  | _ => s

/-- The ACTIVE slot that a slot byte names. -/
def namedActive (s : State) (b : Byte) : Option Slot :=
  (slotOf b.toNat).bind (fun i => if s.isActive i then some i else none)

/-- STATUS_FRAME (R9), at the head of the control queue: its body is not interpreted. -/
def afterStatusFrame (s : State) : State :=
  match s.session.control with
  | .status slot _ :: _ => if (namedActive s slot).isSome then dropControl s else countStray (dropControl s)
  | _ => s

/-- POD_NOTICE (R9, R10), at the head of the control queue. -/
def afterPodNotice (s : State) : State :=
  match s.session.control with
  | .podNotice slot code setting :: _ =>
    match namedActive s slot with
    | some i =>
      let s1 := dropControl s
      followCascade (s1.setSlot i ((s1.slot i).takeNotice code setting))
    | none => countStray (dropControl s)
  | _ => s

/-- POD_REPLY (R9, R11), at the head of the control queue: passed through, or dropped when the reply queue is full. -/
def afterPodReply (s : State) : State :=
  match s.session.control with
  | .podReply slot tag body :: _ =>
    let s1 := dropControl s
    if (namedActive s slot).isSome then
      if s1.dport.replyRoom then placeReplyFrame (.podReply slot tag body) s1
      else s1.setSession { s1.session with podReplyDrops := bump s1.session.podReplyDrops }
    else countStray s1
  | _ => s

/-- U_FRAME_END (R192): the frame in flight upstream has ended, and the oldest frame of the queue begins. -/
def afterUFrameEnd (s : State) : State :=
  match s.session.upInFlight with
  | some _ => s.setSession ({ s.session with upInFlight := none } : SessionUnit).upKick
  | none => s

/-! ### Lanes and captures -/

/-- LANE_INSTANT (R15 to R18). -/
def afterLaneInstant (i : Slot) (s : State) : State := arbitrate (laneStep i s)

/-- CAPTURE_PRE_READ (R66). -/
def afterCapturePreRead (i : Slot) (s : State) : State :=
  match (s.slot i).lane with
  | some l => arbitrate (s.setCap i ((s.cap i).readPre l.position (busyBytes s i)))
  | none => s

/-- HELD_GAP_RUN_PLACE (R64, R73). -/
def afterHeldGapRunPlace (i : Slot) (s : State) : State := arbitrate (s.setCap i ((s.cap i).placeHeld (busyBytes s i)))

end Sys2Proof.Machine
end

