-- ==== Sys2Proof/Machine/StoreRows.lean ====
section
/-! DEFINITION. The rows of the record writers, the arbiter and the readout, and the record store's commands (R54, R98,
R107 to R125). -/

namespace Sys2Proof.Machine

open Sys2Proof

/-! ### Writers and readout -/

/-- EPISODE_WRITE_START (R54, R107): the oldest record of the outbox is admitted, or refused and counted as lost. -/
def afterEpisodeWriteStart (s : State) : State :=
  match s.episodes.writer, s.episodes.outbox with
  | none, r :: rest =>
    match admission 0 r.site r.length s with
    | (s1, none) => s1.setEpisodes { s1.episodes with outbox := rest, lost := bump s1.episodes.lost }
    | (s1, some a) => arbitrate (followStoreLow (s1.setEpisodes { s1.episodes with writer := some a }))
  | _, _ => s

/-- HARMONIC_WRITE_START (R98, R107). -/
def afterHarmonicWriteStart (s : State) : State :=
  match s.harmonic.writer, s.harmonic.outbox with
  | none, r :: rest =>
    match admission 8 r.site r.length s with
    | (s1, none) => s1.setHarmonic { s1.harmonic with outbox := rest, lost := bump s1.harmonic.lost }
    | (s1, some a) => arbitrate (followStoreLow (s1.setHarmonic { s1.harmonic with writer := some a }))
  | _, _ => s

/-- STORE_BURST_END (R113). `paper` is the paper line, should a row become FULL for an IDLE generator. -/
def afterStoreBurstEnd (paper : Paper) (s : State) : State :=
  match s.store.burst with
  | some b => endBurst b paper s
  | none => s

/-- READOUT_FRAME_PLACE (R119). -/
def afterReadoutFramePlace (s : State) : State :=
  if s.store.readout.state = .placing ∧ readoutRoom s then arbitrate (placeReadoutFrame s) else s

/-! ### Listing (R116) -/

/-- Whether an entry passes the filters of a RECORD_LIST (R116). -/
def listed (site : Option Nat) (kind : Option RecordKind) (start : Nat) (e : DirEntry) : Bool :=
  (match site with | some n => e.site == n | none => true) && (match kind with | some k => e.kind == k | none => true) &&
    decide (start ≤ e.id)

/-- The judgement of RECORD_LIST (R116): up to 48 entries, and where to continue. A kind filter outside the rule's four values
is not carried (log 61). -/
def judgeRecordList (site : Option Nat) (kind : Option RecordKind) (start : Nat) (s : State) : Verdict :=
  let all := s.store.dir.filter (listed site kind start)
  let shown := all.take 48
  let more := if 48 < all.length then shown.getLast?.map (fun e => e.id + 1) else none
  done (.records shown more) s

/-- RECORD_LIST (R116). -/
def afterRecordList (e : Envelope) (site : Option Nat) (kind : Option RecordKind) (start : Nat) (s : State) : State :=
  runCommand (.recordList e site kind start) e 21 (unlessParked (judgeRecordList site kind start)) s

/-! ### Reading (R117) -/

/-- The judgement of RECORD_READ (R117). -/
def judgeRecordRead (id o : Nat) (s : State) : Verdict :=
  match s.completeEntry id with
  | none => refuse .notFound s
  | some e =>
    if s.store.readout.state ≠ .none then refuse .busy s
    else if e.length ≤ o then refuse .badParam s
    else
      done (.readout e.length o)
        (mapStore (fun st => { st with readout := ⟨.reading, false, id, o, o, [], []⟩ }) (placeHold id s))

/-- RECORD_READ (R117): when its OK reply has been placed, the readout asks for the port. -/
def afterRecordRead (e : Envelope) (record offset : Nat) (s : State) : State :=
  match takeCommand (.recordRead e record offset) s with
  | none => s
  | some s1 =>
    let v := if e.lengthOk then unlessParked (judgeRecordRead record offset) s1 else refuse .badParam s1
    let r : Reply := ⟨e.tag, 22, v.outcome, v.truncated, v.body⟩
    let s2 := answer r v.state
    if commandIdle s2 then startAsking r s2 else s2

/-! ### Erasing and wiping (R120, R121) -/

/-- The judgement of RECORD_ERASE (R120). -/
def judgeRecordErase (id : Nat) (s : State) : Verdict :=
  match s.entry id with
  | none => refuse .notFound s
  | some e =>
    if s.store.readout.state ≠ .none then refuse .busy s
    else if e.state ≠ .complete then refuse .busy s
    else if e.pins ≠ 0 ∨ e.holds ≠ 0 then refuse .pinned s
    else done (.pagesFreed e.chain.length) (removeEntry e s)

/-- RECORD_ERASE (R120). -/
def afterRecordErase (e : Envelope) (record : Nat) (s : State) : State :=
  runCommand (.recordErase e record) e 23 (unlessParked (judgeRecordErase record)) s

/-- Whether a writer is open (R115). -/
def writerOpen (s : State) : Bool :=
  s.capture.toList.any (fun c => c.phase != .idle) || !s.episodes.outbox.isEmpty || !s.harmonic.outbox.isEmpty

/-- Whether a record is admitted. -/
def anyAdmitted (s : State) : Bool := s.episodes.writer.isSome || s.harmonic.writer.isSome

/-- Whether some hold count is not 0. -/
def anyHeld (s : State) : Bool := s.store.dir.any (fun e => e.holds != 0)

/-- The judgement of STORE_WIPE (R121). -/
def judgeStoreWipe (s : State) : Verdict :=
  if s.openSite.isSome || writerOpen s || anyAdmitted s || anyHeld s then refuse .busy s
  else if s.store.dir.any (fun e => e.pins != 0) then refuse .pinned s
  else done (.wiped s.store.dir.length) (s.store.dir.foldl (fun s e => removeEntry e s) s)

/-- STORE_WIPE (R121). -/
def afterStoreWipe (e : Envelope) (s : State) : State :=
  runCommand (.storeWipe e) e 24 (unlessParked judgeStoreWipe) s

/-! ### Settings (R115) -/

/-- Whether the store is idle (R115). -/
def storeIdle (s : State) : Bool :=
  !writerOpen s && !anyHeld s && !anyAdmitted s && s.store.holder == .none && !primaryWaits s &&
    (nextSecondary s s.store.lastServed).isNone

/-- The judgement of STORE_CONFIG (R115). A quota above 15 is not carried (log 61). -/
def judgeStoreConfig (low : Nat) (qp qs : BitVec 4) (s : State) : Verdict :=
  if storeIdle s then
    let mark := min 4096 (max 16 low)
    done (.settings mark qp.toNat qs.toNat)
      (followStoreLow (mapStore (fun st => { st with lowMark := mark, qp := qp.toNat, qs := qs.toNat }) s))
  else refuse .busy s

/-- STORE_CONFIG (R115). -/
def afterStoreConfig (e : Envelope) (low : Nat) (qp qs : BitVec 4) (s : State) : State :=
  runCommand (.storeConfig e low qp qs) e 25 (unlessParked (judgeStoreConfig low qp qs)) s

/-! ### Parking (R122 to R124) -/

/-- The pages a retention keeps are those below this number (R122). -/
def keptPages : Retention → Nat
  | .all => 16384
  | .half => 8192
  | .quarter => 4096

/-- Every LIVE link that names a record turned LOST (R143). -/
def loseLinks (id : Nat) (s : State) : State :=
  s.setSites { s.sites with
    notes := s.sites.notes.map (fun n =>
      { n with links := n.links.map (fun l => if l.record = id then { l with status := .lost } else l) }) }

/-- An entry dropped by a park (step 3 of R123). -/
def dropEntry (s : State) (e : DirEntry) : State := loseLinks e.id (removeEntry e s)

/-- DETACH sent upstream for a slot that is not EMPTY (R19, R20). -/
def sendDetach (s : State) (i : Slot) : State :=
  if (s.slot i).phase = .empty then s else sendUp (.detach i (s.slot i).serial) s

/-- Every session ended as PARK ends it (R20): the DETACH frames in slot order (log 43), then the slots in DEBOUNCE, then the
ACTIVE slots (log 44). -/
def parkSessions (s : State) : State :=
  let s1 := indexes.foldl sendDetach s
  let debouncing := indexes.filter (fun i => (s1.slot i).phase == .debounce)
  let active := indexes.filter s1.isActive
  let s2 := endSessions active .detached (debouncing.foldl (fun s i => debounceFails i s) s1)
  s2.setSession { s2.session with slots := s2.session.slots.map (fun p => { p with ingress := [] }), control := [] }

/-- A PAPER_FEED running when PARK is taken ends (R167). -/
def parkPrint (s : State) : State :=
  if s.print.gen.mode = .feed then s.setPrint { s.print with gen := restGen s.print, strobe := false } else s

/-- The judgement of PARK (R122, R123). The burst of a composer that was stopped stays in progress, and its holder with it
(log 67). -/
def judgePark (retention : Option Retention) (s : State) : Verdict :=
  match retention with
  | none => refuse .badParam s
  | some r =>
    if s.openSite.isSome then refuse .siteOpen s
    else if !s.print.jobs.isEmpty || s.store.readout.state != .none || writerOpen s || anyAdmitted s then refuse .busy s
    else
      let s1 := parkPrint (parkSessions s)
      let gone := s1.store.dir.filter (fun e => e.chain.any (fun p => decide (keptPages r ≤ p)))
      let s2 := gone.foldl dropEntry s1
      done (.dropped gone.length (gone.flatMap (fun e => e.chain)).length)
        (mapStore (fun st => { st with
          parkState := .parked, retention := some r, mem := keepBelow st.mem (keptPages r * 1024) }) s2)

/-- PARK (R122, R123). -/
def afterPark (e : Envelope) (retention : Option Retention) (s : State) : State :=
  runCommand (.park e retention) e 26 (unlessParked (judgePark retention)) s

/-- The judgement of RESUME (R124). -/
def judgeResume (s : State) : Verdict :=
  if s.parked then done .empty (mapStore (fun st => { st with parkState := .active }) s) else refuse .busy s

/-- RESUME (R14, R124). -/
def afterResume (e : Envelope) (s : State) : State := runCommand (.resume e) e 27 judgeResume s

end Sys2Proof.Machine
end

