-- ==== Sys2Proof/Machine/SiteRows.lean ====
section
/-! DEFINITION. The site unit's commands: sites, notes, links (R127 to R144). -/

namespace Sys2Proof.Machine

open Sys2Proof

/-! ### Text (R135) -/

/-- A text field taken in: bytes outside the printable characters replaced, and the field cut at its limit (R135). -/
def takeText (limit : Nat) (t : Text) : Text := (t.map printable).take limit

/-- Whether a text field is cut (R135). -/
def textCut (limit : Nat) (t : Text) : Bool := decide (limit < t.length)

/-! ### Sites (R129 to R133) -/

/-- A site as SITE_OPEN makes it (R129). -/
def newSite (id : Nat) (name : Text) (seconds : Nat) : SiteEntry :=
  ⟨id, takeText 24 name, .opened, seconds, none, 0, 0, 0, 1, 1⟩

/-- The judgement of SITE_OPEN (R129). -/
def judgeSiteOpen (id : Nat) (name : Text) (s : State) : Verdict :=
  if ¬(1 ≤ id ∧ id ≤ 65535) then refuse .badParam s
  else if s.openSite.isSome then refuse .siteOpen s
  else if (s.site id).isSome then refuse .badParam s
  else if 16 ≤ s.sites.registry.length then refuse .full s
  else
    ⟨s.setSites { s.sites with registry := s.sites.registry ++ [newSite id name s.clock.seconds] }, .ok, textCut 24 name,
      .seconds s.clock.seconds⟩

/-- SITE_OPEN (R129). -/
def afterSiteOpen (e : Envelope) (site : Nat) (name : Text) (s : State) : State :=
  runCommand (.siteOpen e site name) e 11 (unlessParked (judgeSiteOpen site name)) s

/-- The staged pair takes effect at SITE_CLOSE, after the cuts (R82, R96). -/
def closeHarmonic (s : State) : State :=
  let s1 := cutInterval s
  s1.setHarmonic (applyStagedTables s1.harmonic)

/-- The judgement of SITE_CLOSE (R130). -/
def judgeSiteClose (s : State) : Verdict :=
  match s.openSite with
  | none => refuse .noSite s
  | some site =>
    let s1 := closeHarmonic (cutEpisode (cutCaptures s))
    done (.seconds s.clock.seconds)
      (arbitrate (updateSite site.id (fun e => { e with state := .closed, closed := some s.clock.seconds }) s1))

/-- SITE_CLOSE (R130). -/
def afterSiteClose (e : Envelope) (s : State) : State :=
  runCommand (.siteClose e) e 12 (unlessParked judgeSiteClose) s

/-- The judgement of SITE_FORGET (R132). -/
def judgeSiteForget (id : Nat) (s : State) : Verdict :=
  match s.site id with
  | none => refuse .notFound s
  | some e =>
    if e.state ≠ .closed then refuse .busy s
    else if e.records ≠ 0 ∨ e.pending ≠ 0 ∨ e.notes ≠ 0 then refuse .busy s
    else if s.print.jobs.any (fun j => j.site == id) then refuse .busy s
    else done .empty (s.setSites { s.sites with registry := s.sites.registry.filter (fun x => x.id != id) })

/-- SITE_FORGET (R132). -/
def afterSiteForget (e : Envelope) (site : Nat) (s : State) : State :=
  runCommand (.siteForget e site) e 13 (unlessParked (judgeSiteForget site)) s

/-- The judgement of SITE_LIST (R133). -/
def judgeSiteList (s : State) : Verdict := done (.sites s.sites.registry) s

/-- SITE_LIST (R133). -/
def afterSiteList (e : Envelope) (s : State) : State := runCommand (.siteList e) e 14 judgeSiteList s

/-! ### Notes (R136 to R140) -/

/-- The note with an id. -/
def State.note (s : State) (id : Nat) : Option Note := s.sites.notes.find? (fun n => n.id == id)

/-- The record tests of R137 for a site: the refusal of the first that fails. -/
def recordTest (s : State) (site id : Nat) : Option OutcomeCode :=
  match s.completeEntry id with
  | none => some .notFound
  | some e => if e.site = site then none else some .badParam

/-- A note id after another; 65535 is followed by 1 (R134). -/
def noteIdAfter (n : Nat) : Nat := if n < 65535 then n + 1 else 1

/-- The next note id that no note holds, from a candidate on, within as many tries as there are notes (R134). -/
def freeNoteId (notes : List Note) : Nat → Nat → Nat
  | 0, n => n
  | tries + 1, n => if notes.any (fun x => x.id == n) then freeNoteId notes tries (noteIdAfter n) else n

/-- A note filed in ascending note id (R134). -/
def insertNote (n : Note) : List Note → List Note
  | [] => [n]
  | m :: rest => if n.id < m.id then n :: m :: rest else m :: insertNote n rest

/-- The site unit with a note added, and the next note id advanced (R134, R136). -/
def addNote (n : Note) (u : SiteUnit) : SiteUnit :=
  let notes := insertNote n u.notes
  { u with notes := notes, nextNote := freeNoteId notes notes.length (noteIdAfter u.nextNote) }

/-- The judgement of NOTE_ADD (R136). -/
def judgeNoteAdd (site : Nat) (tags : BitVec 32) (text : Text) (links : List Nat) (s : State) : Verdict :=
  if (s.site site).isNone then refuse .notFound s
  else if 4 < links.length ∨ ¬links.Nodup then refuse .badParam s
  else if 64 ≤ s.sites.notes.length then refuse .full s
  else
    match links.findSome? (recordTest s site) with
    | some o => refuse o s
    | none =>
      let n : Note := ⟨s.sites.nextNote, site, s.clock.seconds, tags, takeText 160 text, links.map (fun r => ⟨r, .live⟩)⟩
      let s1 := links.foldl (fun s r => placePin r s) (s.setSites (addNote n s.sites))
      ⟨updateSite site (fun e => { e with notes := e.notes + 1 }) s1, .ok, textCut 160 text, .noteId n.id⟩

/-- NOTE_ADD (R136). -/
def afterNoteAdd (e : Envelope) (site : Nat) (tags : BitVec 32) (text : Text) (links : List Nat) (s : State) : State :=
  runCommand (.noteAdd e site tags text links) e 15 (judgeNoteAdd site tags text links) s

/-- A note changed. -/
def updateNote (id : Nat) (f : Note → Note) (s : State) : State :=
  s.setSites { s.sites with notes := s.sites.notes.map (fun n => if n.id = id then f n else n) }

/-- The pin count of an entry. -/
def pinsOf (s : State) (id : Nat) : Nat :=
  match s.entry id with
  | some e => e.pins
  | none => 0

/-- The judgement of NOTE_LINK (R138). -/
def judgeNoteLink (note record : Nat) (s : State) : Verdict :=
  match s.note note with
  | none => refuse .notFound s
  | some n =>
    if 4 ≤ n.links.length then refuse .full s
    else if n.links.any (fun l => l.record == record) then refuse .badParam s
    else
      match recordTest s n.site record with
      | some o => refuse o s
      | none =>
        let s1 := placePin record (updateNote note (fun n => { n with links := n.links ++ [⟨record, .live⟩] }) s)
        done (.pinCount (pinsOf s1 record)) s1

/-- NOTE_LINK (R138). -/
def afterNoteLink (e : Envelope) (note record : Nat) (s : State) : State :=
  runCommand (.noteLink e note record) e 16 (judgeNoteLink note record) s

/-- The judgement of NOTE_UNLINK (R139). -/
def judgeNoteUnlink (note record : Nat) (s : State) : Verdict :=
  match s.note note with
  | none => refuse .notFound s
  | some n =>
    match n.links.find? (fun l => l.record == record) with
    | none => refuse .notFound s
    | some l =>
      let s1 := updateNote note (fun n => { n with links := n.links.filter (fun x => x.record != record) }) s
      match l.status with
      | .live => let s2 := removePin record s1; done (.unlinked .live (some (pinsOf s2 record))) s2
      | .lost => done (.unlinked .lost none) s1

/-- NOTE_UNLINK (R139). -/
def afterNoteUnlink (e : Envelope) (note record : Nat) (s : State) : State :=
  runCommand (.noteUnlink e note record) e 17 (judgeNoteUnlink note record) s

/-- The LIVE links of a note. -/
def Note.live (n : Note) : List Link := n.links.filter (fun l => l.status == .live)

/-- The judgement of NOTE_DELETE (R140). -/
def judgeNoteDelete (note : Nat) (s : State) : Verdict :=
  match s.note note with
  | none => refuse .notFound s
  | some n =>
    let s1 := n.live.foldl (fun s l => removePin l.record s) s
    let s2 := s1.setSites { s1.sites with notes := s1.sites.notes.filter (fun x => x.id != note) }
    done (.pinsRemoved n.live.length) (updateSite n.site (fun e => { e with notes := e.notes - 1 }) s2)

/-- NOTE_DELETE (R140). -/
def afterNoteDelete (e : Envelope) (note : Nat) (s : State) : State :=
  runCommand (.noteDelete e note) e 18 (judgeNoteDelete note) s

/-! ### Reading notes (R141, R142) -/

/-- The kind of a LIVE link's entry (R141). -/
def linkKind (s : State) (l : Link) : Option RecordKind :=
  match l.status with
  | .live => (s.entry l.record).map (fun e => e.kind)
  | .lost => none

/-- The judgement of NOTE_READ (R141). -/
def judgeNoteRead (note : Nat) (s : State) : Verdict :=
  match s.note note with
  | none => refuse .notFound s
  | some n => done (.note n (n.links.map (linkKind s))) s

/-- NOTE_READ (R141). -/
def afterNoteRead (e : Envelope) (note : Nat) (s : State) : State :=
  runCommand (.noteRead e note) e 19 (judgeNoteRead note) s

/-- Whether a note passes the filters of a NOTE_LIST (R142). -/
def noteListed (site : Option Nat) (filter : BitVec 32) (start : Nat) (n : Note) : Bool :=
  (match site with | some x => n.site == x | none => true) && tagsMatch filter n.tags && decide (start ≤ n.id)

/-- A note as NOTE_LIST gives it (R142). -/
def Note.summary (n : Note) : NoteSummary :=
  ⟨n.id, n.site, n.created, n.tags, n.text.length, n.live.length, n.links.length - n.live.length⟩

/-- The judgement of NOTE_LIST (R142): up to 16 notes, and where to continue. -/
def judgeNoteList (site : Option Nat) (filter : BitVec 32) (start : Nat) (s : State) : Verdict :=
  let all := s.sites.notes.filter (noteListed site filter start)
  let shown := all.take 16
  let more := if 16 < all.length then shown.getLast?.map (fun n => n.id + 1) else none
  done (.notes (shown.map Note.summary) more) s

/-- NOTE_LIST (R142). -/
def afterNoteList (e : Envelope) (site : Option Nat) (filter : BitVec 32) (start : Nat) (s : State) : State :=
  runCommand (.noteList e site filter start) e 20 (judgeNoteList site filter start) s

end Sys2Proof.Machine
end

