-- ==== Sys2Proof/Machine/PrintRows.lean ====
section
/-! DEFINITION. The rows of the print engine: the composer, the print timing generator and the printing commands (R149 to
R165). -/

namespace Sys2Proof.Machine

open Sys2Proof

/-! ### Composer and generator -/

/-- COMPOSER_ROW (R152). `paper` is the paper line, should the row become FULL for an IDLE generator. -/
def afterComposerRow (paper : Paper) (s : State) : State := arbitrate (composerTake paper s)

/-- The running period changed, its tick counter moved to a tick. -/
def atTick (tick : Nat) (f : Period → Period) (p : PrintEngine) : PrintEngine :=
  { p with gen := { p.gen with period := p.gen.period.map (fun x => { f x with tick := tick }) } }

/-- Whether the period's line is one from a band half. -/
def bandLine (p : PrintEngine) : Bool := p.gen.mode == .band

/-- The strobe can be asserted at its start tick: a step of an earlier tick has been given (R160, R161). Log 38. -/
def strobeDue (x : Period) : Bool := !x.strobed && !x.headHold && (x.stepped || decide (x.timing.strobeStart ≤ x.timing.step))

/-- The strobe can be released at its end tick. -/
def releaseDue (x : Period) : Bool := x.strobed && !x.released && (x.stepped || decide (x.timing.strobeEnd ≤ x.timing.step))

/-- The step can be given at its tick: for a band line, what the strobe does at earlier ticks is done (R160, R161). -/
def stepDue (band : Bool) (x : Period) : Bool :=
  !x.stepped && (!band || ((x.strobed || decide (x.timing.step ≤ x.timing.strobeStart)) &&
    (x.released || decide (x.timing.step ≤ x.timing.strobeEnd))))

/-- The period can end: all its line's ticks are done (R160). -/
def endDue (band : Bool) (x : Period) : Bool := x.stepped && (!band || x.released)

/-- PRINT_PERIOD_END (R160). `paper` is the paper line as the next period would begin. -/
def afterPrintPeriodEnd (paper : Paper) (s : State) : State :=
  match s.print.gen.period with
  | some x => if endDue (bandLine s.print) x then arbitrate (endPeriod paper s) else s
  | none => s

/-- STROBE_START (R160, R161): with the head line OK the strobe is asserted; with HOT the line is held. -/
def afterStrobeStart (head : Head) (s : State) : State :=
  match s.print.gen.period with
  | some x =>
    if bandLine s.print && strobeDue x then
      match head with
      | .ok => s.setPrint { atTick x.timing.strobeStart (fun y => { y with strobed := true }) s.print with head := .ok, strobe := true }
      | .hot => s.setPrint { atTick x.timing.strobeStart (fun y => { y with headHold := true }) s.print with head := .hot }
    else s
  | none => s

/-- STROBE_END (R160). -/
def afterStrobeEnd (s : State) : State :=
  match s.print.gen.period with
  | some x =>
    if bandLine s.print && releaseDue x then
      s.setPrint { atTick x.timing.strobeEnd (fun y => { y with released := true }) s.print with strobe := false }
    else s
  | none => s

/-- MOTOR_STEP (R160). -/
def afterMotorStep (s : State) : State :=
  match s.print.gen.period with
  | some x =>
    if stepDue (bandLine s.print) x then s.setPrint (atTick x.timing.step (fun y => { y with stepped := true }) s.print) else s
  | none => s

/-- HEAD_OK (R161): the head line reads OK again, and a held line goes on with its strobe asserted. -/
def afterHeadOk (s : State) : State :=
  let p : PrintEngine := { s.print with head := .ok }
  match p.gen.period with
  | some x =>
    if x.headHold then
      s.setPrint { atTick x.timing.strobeStart (fun y => { y with strobed := true, headHold := false }) p with strobe := true }
    else s.setPrint p
  | none => s.setPrint p

/-- PAPER_PRESENT (R162): a STALLED job becomes ACTIVE, and its half begins again from dot line 0. -/
def afterPaperPresent (s : State) : State :=
  let s1 := s.setPrint { s.print with paper := .present }
  match s1.print.jobs with
  | j :: _ =>
    if j.state = .stalled then
      followStall (startBand s1.print.gen.half .present (s1.setPrint (s1.print.mapHead (fun j => { j with state := .active }))))
    else s1
  | [] => s1

/-! ### Commands (R149, R151, R163, R165) -/

/-- A job id after another; 255 is followed by 1 (R148). -/
def jobIdAfter (n : Nat) : Nat := if n < 255 then n + 1 else 1

/-- The next job id that no job holds, from a candidate on, within as many tries as there are jobs (R148). -/
def freeJobId (jobs : List Job) : Nat → Nat → Nat
  | 0, n => n
  | tries + 1, n => if jobs.any (fun j => j.id == n) then freeJobId jobs tries (jobIdAfter n) else n

/-- The print engine with a job appended (R148, R149). -/
def PrintEngine.submit (template : Fin 4) (site : Nat) (p : PrintEngine) : PrintEngine :=
  let jobs := p.jobs ++ [⟨p.nextJob, template, site, .queued, .none, 0⟩]
  { p with jobs := jobs, nextJob := freeJobId jobs jobs.length (jobIdAfter p.nextJob) }

/-- The judgement of PRINT_SUBMIT (R149). -/
def judgePrintSubmit (template site : Nat) (s : State) : Verdict :=
  match slotOf template with
  | none => refuse .badParam s
  | some t =>
    if (s.site site).isNone then refuse .notFound s
    else if (s.print.templates.get t).isEmpty then refuse .badParam s
    else if 8 ≤ s.print.jobs.length then refuse .full s
    else done (.jobId s.print.nextJob) (activateHead (s.setPrint (s.print.submit t site)))

/-- PRINT_SUBMIT (R149, R150). -/
def afterPrintSubmit (e : Envelope) (template site : Nat) (s : State) : State :=
  runCommand (.printSubmit e template site) e 28 (unlessParked (judgePrintSubmit template site)) s

/-- A QUEUED job removed from the queue, which ends CANCELLED (R163). -/
def removeQueued (j : Job) (s : State) : State :=
  let p := s.print
  activateHead (raise 9 (s.setPrint
    ({ p with jobs := p.jobs.filter (fun x => x.id != j.id) } |>.finish j .cancelled .cancelledByCommand)))

/-- A cancel PENDING on the head job, which takes effect at once if the generator is IDLE (R163, R164), its first feed line
judged by the paper line as it reads. -/
def setPending (tag : BitVec 16) (paper : Paper) (s : State) : State :=
  let s1 := s.setPrint (s.print.mapHead (fun j => { j with cancel := .pending tag }))
  if s1.print.gen.mode = .idle then arbitrate (cancelEffect paper s1) else s1

/-- PRINT_CANCEL taken (R163): its verdict, or none where its reply is deferred to the print engine, with the part after
it. -/
def judgePrintCancel (tag : BitVec 16) (id : Nat) (paper : Paper) (s : State) : State × Option Verdict :=
  match s.print.jobs.find? (fun j => j.id == id) with
  | none => (s, some (refuse .notFound s))
  | some j =>
    match j.cancel, j.state with
    | .none, .queued => (s, some (done (.cancelled j.id 0) (removeQueued j s)))
    | .none, .stalled =>
      (s, some (done (.cancelled j.id j.rows) (arbitrate (endJob .cancelled .cancelledByCommand s))))
    | .none, .active => (setPending tag paper s, none)
    | _, _ => (s, some (refuse .busy s))

/-- PRINT_CANCEL (R163). -/
def afterPrintCancel (e : PrinterEnvelope) (job : Nat) (s : State) : State :=
  match takeCommand (.printCancel e job) s with
  | none => s
  | some s1 =>
    let x :=
      if !e.lengthOk then (s1, some (refuse .badParam s1))
      else if s1.parked then (s1, some (refuse .parked s1))
      else judgePrintCancel e.tag job e.paper s1
    match x.2 with
    | some v => answer ⟨e.tag, 29, v.outcome, v.truncated, v.body⟩ v.state
    | none => x.1.setCmd x.1.cmd.finish

/-- PAPER_FEED rows left, if such a feed is running (R151). Log 35. -/
def feedRows (g : Generator) : Option Nat :=
  if g.mode = .feed ∧ g.feedFor = .paperFeed then some ((g.feedLeft + 27) / 28) else none

/-- The judgement of PRINT_LIST (R151), with the paper and head lines as they read. The line index and the snapshot size are
the composer's as they stand: a HARMONIC_TABLE's snapshot is not counted (log 63), a composer at rest or FINISHED has those of
log 64, and one stopped by a cancel those of log 50. -/
def judgePrintList (paper : Paper) (head : Head) (s : State) : Verdict :=
  let p := s.print
  done (.jobs p.jobs p.finished p.gen.mode paper head p.composer.line p.composer.snapshot.length (feedRows p.gen)
    p.underruns) s

/-- PRINT_LIST (R151). -/
def afterPrintList (e : PrinterEnvelope) (s : State) : State :=
  runCommand (.printList e) e.toEnvelope 30 (unlessParked (judgePrintList e.paper e.head)) s

/-- The judgement of PAPER_FEED (R165), its first feed line judged by the paper line as it reads. -/
def judgePaperFeed (n : Nat) (paper : Paper) (s : State) : Verdict :=
  if ¬(1 ≤ n ∧ n ≤ 64) then refuse .badParam s
  else if s.print.gen.mode = .held then refuse .busy s
  else if s.print.jobs.any (fun j => j.state != .queued) || s.print.gen.mode == .feed then refuse .busy s
  else done .empty (startFeed (n * 28) .paperFeed paper s)

/-- PAPER_FEED (R165). -/
def afterPaperFeed (e : PrinterEnvelope) (n : Nat) (s : State) : State :=
  runCommand (.paperFeed e n) e.toEnvelope 31 (unlessParked (judgePaperFeed n e.paper)) s

end Sys2Proof.Machine
end

