-- ==== Sys2Proof/Machine/NoticeRows.lean ====
section
/-! DEFINITION. The rows of the notice unit (R174 to R179). -/

namespace Sys2Proof.Machine

open Sys2Proof

/-- OFFER_RETRY (R174, R187): a place of the reply queue has become free, no reply waits, and the offer is judged
again. -/
def afterOfferRetry (s : State) : State :=
  if s.dport.placeFreed && s.notices.waiting && s.cmd.waiting.isNone && s.print.deferred.isEmpty then
    judgeOffer ((s.setNotices { s.notices with waiting := false }).setDport { s.dport with placeFreed := false })
  else s

/-- Whether a source is a level source (00_scope.md). -/
def isLevel (k : Fin 12) : Bool := k == 4 || k == 7 || k == 8

/-- The slot and code that an acknowledgement of source 7 picks (R176). -/
def pickCascade (s : State) : Option (Slot × BitVec 48 × Nat) :=
  match indexes.find? (fun i => (s.slot i).pendingSet != 0) with
  | none => none
  | some i => (highestCode (s.slot i).pendingSet).map (fun c => (i, (s.slot i).serial, c))

/-- A source enters service (steps 1 to 3 of R175): ahead of every source in service, which it outranks. -/
def NoticeUnit.serve (g : Fin 12) (cascade : Option (Slot × BitVec 48 × Nat)) (n : NoticeUnit) : NoticeUnit :=
  { n with
    requests := if isLevel g then n.requests else removeSource n.requests g
    service := ⟨g, cascade⟩ :: n.service }

/-- POD_ACK sent for what an acknowledgement of source 7 has picked (R176). -/
def sendPodAck (c : Option (Slot × BitVec 48 × Nat)) (s : State) : State :=
  match c with
  | some (i, _, code) => sendUp (.podAck i code) s
  | none => s

/-- An acknowledgement (R175): the source taken and what it picked, and the part after it with the offer judged again. -/
def acknowledge (s : State) : State × Option (Fin 12) × Option (Slot × BitVec 48 × Nat) :=
  match s.notices.highest with
  | none => (s, none, none)
  | some g =>
    let c := if g = 7 then pickCascade s else none
    (judgeOffer (sendPodAck c (s.setNotices (s.notices.serve g c))), some g, c)

/-- The judgement of NOTICE_ACK (R175). -/
def judgeNoticeAck (s : State) : Verdict :=
  let a := acknowledge s
  done (.acked a.2.1 a.2.2) a.1

/-- NOTICE_ACK (R175). -/
def afterNoticeAck (e : Envelope) (s : State) : State := runCommand (.noticeAck e) e 32 judgeNoticeAck s

/-- The judgement of NOTICE_POLL (R175). -/
def judgeNoticePoll (s : State) : Verdict :=
  let a := acknowledge s
  done (.polled a.2.1 a.2.2 a.1.notices.requests a.1.notices.masked a.1.notices.service) a.1

/-- NOTICE_POLL (R175). -/
def afterNoticePoll (e : Envelope) (s : State) : State := runCommand (.noticePoll e) e 33 judgeNoticePoll s

/-- POD_END sent for an in-service entry of source 7 whose pod is still there (R178). -/
def sendPodEnd (c : Option (Slot × BitVec 48 × Nat)) (s : State) : State :=
  match c with
  | some (i, serial, code) => if s.isActive i ∧ (s.slot i).serial = serial then sendUp (.podEnd i code) s else s
  | none => s

/-- An in-service entry removed, and the rotation base advanced in ROTATING (R171, R177). -/
def NoticeUnit.endSource (x : ServiceEntry) (n : NoticeUnit) : NoticeUnit :=
  { n with
    service := n.service.filter (fun e => e.source != x.source)
    base := match n.mode with | .rotating => sourceAfter x.source 1 | .fixed => n.base }

/-- A source in service ended (R177). -/
def endNotice (x : ServiceEntry) (s : State) : Verdict :=
  done (.ended x.source) (judgeOffer (sendPodEnd x.cascade (s.setNotices (s.notices.endSource x))))

/-- The judgement of NOTICE_END (R177). -/
def judgeNoticeEnd (source : Option Nat) (s : State) : Verdict :=
  match source with
  | none =>
    match s.notices.service with
    | x :: _ => endNotice x s
    | [] => refuse .notFound s
  | some k =>
    if 12 ≤ k then refuse .badParam s
    else
      match s.notices.service.find? (fun e => e.source.val == k) with
      | some x => endNotice x s
      | none => refuse .notFound s

/-- NOTICE_END (R177). -/
def afterNoticeEnd (e : Envelope) (source : Option Nat) (s : State) : State :=
  runCommand (.noticeEnd e source) e 34 (judgeNoticeEnd source) s

/-- The judgement of NOTICE_MASK (R179). -/
def judgeNoticeMask (mask : BitVec 12) (s : State) : Verdict :=
  done (.mask mask) (judgeOffer (s.setNotices { s.notices with masked := mask }))

/-- NOTICE_MASK (R179). -/
def afterNoticeMask (e : Envelope) (mask : BitVec 12) (s : State) : State :=
  runCommand (.noticeMask e mask) e 35 (judgeNoticeMask mask) s

/-- The judgement of NOTICE_MODE (R179). -/
def judgeNoticeMode (mode : Option NoticeMode) (s : State) : Verdict :=
  match mode with
  | none => refuse .badParam s
  | some m =>
    if !s.notices.service.isEmpty then refuse .busy s
    else
      done (.mode m) (judgeOffer (s.setNotices
        { s.notices with mode := m, base := match m with | .rotating => 0 | .fixed => s.notices.base }))

/-- NOTICE_MODE (R179). -/
def afterNoticeMode (e : Envelope) (mode : Option NoticeMode) (s : State) : State :=
  runCommand (.noticeMode e mode) e 36 (judgeNoticeMode mode) s

/-- The judgement of NOTICE_POLLING (R179). -/
def judgeNoticePolling (on : Bool) (s : State) : Verdict :=
  done (.polling on)
    (if on then s.setNotices { s.notices with polling := true, offered := none, waiting := false }
     else judgeOffer (s.setNotices { s.notices with polling := false }))

/-- NOTICE_POLLING (R179). -/
def afterNoticePolling (e : Envelope) (on : Bool) (s : State) : State :=
  runCommand (.noticePolling e on) e 37 (judgeNoticePolling on) s

end Sys2Proof.Machine
end

