-- ==== Sys2Proof/Machine/DownRows.lean ====
section
/-! DEFINITION. The rows of the D-port and of the command unit's queue, and the commands that are no block's own (R163, R181
to R197, R11). -/

namespace Sys2Proof.Machine

open Sys2Proof

/-! ### Replies that wait (R163, R187, R197) -/

/-- REPLY_PLACE (R187, R197). -/
def afterReplyPlace (s : State) : State :=
  match s.cmd.waiting with
  | some r => if s.dport.replyRoom then startAsking r (placeWaiting r s) else s
  | none => s

/-- DEFERRED_REPLY_PLACE (R163, R187): after any reply of the command unit. -/
def afterDeferredReplyPlace (s : State) : State :=
  match s.print.deferred with
  | r :: rest =>
    if s.dport.replyRoom && s.cmd.waiting.isNone then
      placeReplyFrame (.reply r) ((s.setPrint { s.print with deferred := rest }).setDport { s.dport with placeFreed := false })
    else s
  | [] => s

/-! ### The line (R181 to R185, R190) -/

/-- The pending hold reply as the frame in flight ends: placed at the tail of the reply queue, which finishes HOLD, or
waiting in the command unit when the queue is full (R190). -/
def placeHoldReply (s : State) : State :=
  match s.dport.pendingHold with
  | none => s
  | some r =>
    if s.dport.replyRoom then
      (s.setDport { s.dport with reply := s.dport.reply ++ [.reply r], pendingHold := none }).setCmd
        s.cmd.finish
    else (s.setDport { s.dport with pendingHold := none }).setCmd { s.cmd with waiting := some r }

/-- D_FRAME_END (R185, R190): the frame in flight has ended, and the transmitter chooses. -/
def afterDFrameEnd (s : State) : State :=
  match s.dport.inFlight with
  | some _ =>
    let s1 := placeHoldReply (s.setDport { s.dport with inFlight := none })
    s1.setDport s1.dport.kick
  | none => s

/-- COMMAND (R183, R196): a frame that carries a command of the crew computer. -/
def afterCommand (c : Instr) (s : State) : State := if isCommand c then arrive c s else s

/-- D_FRAME_REJECT (R181, R193). A frame that passes the tests is no such row. -/
def afterDFrameReject (f : LineFrame) (s : State) : State :=
  match judgeDown f with
  | some .crc => s.setDport { s.dport with crcErrorsD := bump s.dport.crcErrorsD }
  | some .frame => s.setDport { s.dport with frameErrorsD := bump s.dport.frameErrorsD }
  | none => s

/-! ### Commands without a block (R11, R195) -/

/-- Whether a command code names a command of the part (R204). -/
def knownCode (code : Byte) : Bool := decide (1 ≤ code.toNat) && decide (code.toNat ≤ 37)

/-- The commands without parameters by their code (R204), their envelope built from the tag and from whether there are no
parameters (test 4 of R195). -/
def plainCommand (e : Envelope) (code : Byte) : Option Instr :=
  match code.toNat with
  | 5 => some (.softReset e)
  | 6 => some (.hold e)
  | 7 => some (.release e)
  | 12 => some (.siteClose e)
  | 14 => some (.siteList e)
  | 24 => some (.storeWipe e)
  | 27 => some (.resume e)
  | 30 => some (.printList ⟨e, .present, .ok⟩)
  | 32 => some (.noticeAck e)
  | 33 => some (.noticePoll e)
  | _ => none

/-- The row that a COMMAND frame for PART stands for, where its bytes alone decide it: a code that names no command, or a
command without parameters. The parameters of the others have no byte layout (log 22), and what a forwarded command's
body takes in is left open (log 12). -/
def commandRow (f : CommandFrame) : Option Instr :=
  if f.target ≠ 0xFF#8 then none
  else if knownCode f.code then plainCommand ⟨f.tag, f.parameters.isEmpty⟩ f.code
  else some (.unknownCommand f.tag f.code)

/-- UNKNOWN_COMMAND (R195): answered UNKNOWN in every park state. A known code is no such row. -/
def afterUnknownCommand (tag : BitVec 16) (code : Byte) (s : State) : State :=
  if knownCode code then s else runCommand (.unknownCommand tag code) ⟨tag, true⟩ code (refuse .unknown) s

/-- The judgement of a command with a target other than PART (R11, R195). Log 12. -/
def judgeForwarded (tag : BitVec 16) (target : Byte) (body : List Byte) (s : State) : Verdict :=
  match slotOf target.toNat with
  | none => refuse .badParam s
  | some i =>
    if s.parked then refuse .parked s
    else if 64 < body.length then refuse .badParam s
    else if !s.isActive i then refuse .noPod s
    else if !s.session.upRoom then refuse .busy s
    else done .empty (sendUp (.podCommand i tag body) s)

/-- FORWARDED_COMMAND (R11, R195). A command whose target is PART is no such row. -/
def afterForwardedCommand (tag : BitVec 16) (target code : Byte) (body : List Byte) (s : State) : State :=
  if target = 0xFF#8 then s
  else runCommand (.forwardedCommand tag target code body) ⟨tag, true⟩ code (judgeForwarded tag target body) s

/-! ### HOLD and RELEASE (R190, R191) -/

/-- HOLD's reply made pending, or placed at once when no frame is in flight (R190). -/
def answerHold (r : Reply) (s : State) : State :=
  if s.dport.inFlight.isNone then answer r s
  else (s.setDport { s.dport with pendingHold := some r }).setCmd { s.cmd with running := some (r.tag, r.code) }

/-- HOLD (R190). -/
def afterHold (e : Envelope) (s : State) : State :=
  match takeCommand (.hold e) s with
  | none => s
  | some s1 =>
    if e.lengthOk then answerHold ⟨e.tag, 6, .ok, false, .empty⟩ (s1.setDport { s1.dport with hold := true })
    else answer ⟨e.tag, 6, .badParam, false, .empty⟩ s1

/-- The judgement of RELEASE (R191): with nothing in flight the transmitter chooses at once. -/
def judgeRelease (s : State) : Verdict := done .empty (s.setDport ({ s.dport with hold := false } : DPort).kick)

/-- RELEASE (R191). -/
def afterRelease (e : Envelope) (s : State) : State := runCommand (.release e) e 7 judgeRelease s

/-! ### Pods and captures (R5, R13, R76) -/

/-- The judgement of POD_DETACH (R5). -/
def judgePodDetach (n : Nat) (s : State) : Verdict :=
  match slotOf n with
  | none => refuse .badParam s
  | some i =>
    let s1 := sendUp (.detach i (s.slot i).serial) s
    match (s.slot i).phase with
    | .active => done .empty (arbitrate (endSessions [i] .detached s1))
    | .debounce => done .empty (debounceFails i s1)
    | .ending => refuse .busy s
    | .empty => refuse .noPod s

/-- POD_DETACH (R5). A parked part answers PARKED whatever slot is named (log 57). -/
def afterPodDetach (e : Envelope) (slot : Nat) (s : State) : State :=
  runCommand (.podDetach e slot) e 8 (unlessParked (judgePodDetach slot)) s

/-- The judgement of SLOT_PASSTHROUGH (R13). -/
def judgeSlotPassthrough (n : Nat) (on : Bool) (s : State) : Verdict :=
  match slotOf n with
  | none => refuse .badParam s
  | some i => done .empty (s.setSlot i { s.slot i with passthrough := on })

/-- SLOT_PASSTHROUGH (R13). A parked part answers PARKED whatever slot is named (log 57). -/
def afterSlotPassthrough (e : Envelope) (slot : Nat) (on : Bool) (s : State) : State :=
  runCommand (.slotPassthrough e slot on) e 9 (unlessParked (judgeSlotPassthrough slot on)) s

/-- The judgement of CAPTURE_FORCE (R76). Entries reclaimed for a creation that the store still refuses stay removed
(R109). Log 34. -/
def judgeCaptureForce (slot n : Nat) (s : State) : Verdict :=
  match slotOf slot with
  | none => refuse .badParam s
  | some i =>
    if ¬(1 ≤ n ∧ n ≤ 64) then refuse .badParam s
    else
      match s.openSite with
      | none => refuse .noSite s
      | some site =>
        if !s.isActive i then refuse .noPod s
        else if (s.cap i).phase ≠ .idle ∨ (s.cap i).pending.isSome then refuse .busy s
        else
          match startCapture i site.id none (some n) s with
          | (s1, none) => refuse .full s1
          | (s1, some id) => done (.captureId id) s1

/-- CAPTURE_FORCE (R76). -/
def afterCaptureForce (e : Envelope) (slot n : Nat) (s : State) : State :=
  runCommand (.captureForce e slot n) e 10 (unlessParked (judgeCaptureForce slot n)) s

end Sys2Proof.Machine
end

