-- ==== Sys2Proof/Machine/TableRows.lean ====
section
/-! DEFINITION. TABLE_LOAD and TABLE_READ (R30, R40, R41, R61, R80 to R82, R145, R147, R198, R199). -/

namespace Sys2Proof.Machine

open Sys2Proof

/-! ### The tests common to every load (R198) -/

/-- The first index of a run at which an entry fails its check. -/
def failing {α : Type} (ok : Nat → α → Bool) : Nat → List α → Option Nat
  | _, [] => none
  | i, x :: rest => if ok i x then failing ok (i + 1) rest else some i

/-- Tests 1 to 3 of R198 for a table of `size` entries and a frame that carries `given` of them. -/
def judgeLoad (h : LoadHead) (size given : Nat) (k : State → Verdict) (s : State) : Verdict :=
  if !h.tableKnown then refuse .badParam s
  else if s.parked then refuse .parked s
  else if h.count = 0 ∨ size < h.first + h.count ∨ given ≠ h.count then refuse .badParam s
  else k s

/-- A TABLE_LOAD run (R195, R198). -/
def runLoad (c : Instr) (h : LoadHead) (size given : Nat) (k : State → Verdict) (s : State) : State :=
  runCommand c ⟨h.tag, h.lengthOk⟩ 1 (judgeLoad h size given k) s

/-- A run written over a list of entries. -/
def overlay {α : Type} (first : Nat) (run table : List α) : List α :=
  table.take first ++ run ++ table.drop (first + run.length)

/-! ### SURVEY (R199) -/

/-- The checks of a SURVEY entry (R199). -/
def surveyOk (e : SurveyEntry) : Bool := (e.fNom == 50 || e.fNom == 60) && decide (e.h ≤ 2047)

/-- Whether any slot is not EMPTY. -/
def anySlotUsed (s : State) : Bool := s.session.slots.toList.any (fun p => p.phase != .empty)

/-- The judgement of a SURVEY load (R199). -/
def loadSurvey (h : LoadHead) (entries : List SurveyEntry) (s : State) : Verdict :=
  match failing (fun _ e => surveyOk e) h.first entries, entries with
  | some i, _ => badTable i s
  | none, e :: _ =>
    if e.fNom ≠ s.survey.fNom ∧ (anySlotUsed s ∨ s.openSite.isSome) then refuse .busy s else done .empty (s.setSurvey e)
  | none, [] => refuse .badParam s

/-- TABLE_LOAD_SURVEY (R198, R199). -/
def afterTableLoadSurvey (h : LoadHead) (entries : List SurveyEntry) (s : State) : State :=
  runLoad (.tableLoadSurvey h entries) h 1 entries.length (loadSurvey h entries) s

/-! ### REFERENCE (R30) -/

/-- Whether the entry at an index of the REFERENCE table passes, in the table as it would stand: its value is a channel or
EMPTY, and neither an entry outside the run nor one before it in the run holds the same channel (R30). -/
def referenceOk (table : List (Option Nat)) (first count i : Nat) (x : Option Nat) : Bool :=
  match x with
  | none => true
  | some c =>
    decide (c < 16) && (List.range 4).all (fun j =>
      decide (j = i) || decide (first ≤ j ∧ j < first + count ∧ i < j) || table.getD j none != some c)

/-- The judgement of a REFERENCE load, which makes handover run with reason RELOAD (R30, R33). -/
def loadReference (h : LoadHead) (entries : List (Option Nat)) (s : State) : Verdict :=
  let t := overlay h.first entries s.tracker.table.toList
  match failing (referenceOk t h.first h.count) h.first entries with
  | some i => badTable i s
  | none =>
    done .empty (handover .reload (s.setTracker
      { s.tracker with table := ⟨t.getD 0 none, t.getD 1 none, t.getD 2 none, t.getD 3 none⟩ }))

/-- TABLE_LOAD_REFERENCE (R30, R198). -/
def afterTableLoadReference (h : LoadHead) (entries : List (Option Nat)) (s : State) : State :=
  runLoad (.tableLoadReference h entries) h 4 entries.length (loadReference h entries) s

/-! ### THRESHOLD (R40, R41) -/

/-- Entries given to the channels from a number on (R41). -/
def loadChannels : Nat → List ThresholdEntry → State → State
  | _, [], s => s
  | n, t :: rest, s =>
    match chanOf n with
    | none => s
    | some c => loadChannels (n + 1) rest (s.setChan c ((s.chan c).load t (s.isActive c.slot)))

/-- Whether a run holds a channel whose slot is not ACTIVE, whose entry thus takes effect at once. Log 37. -/
def takesEffect (first count : Nat) (s : State) : Bool :=
  channels.any (fun c => decide (first ≤ c.val ∧ c.val < first + count) && !s.isActive c.slot)

/-- The judgement of a THRESHOLD load (R32, R40, R41). -/
def loadThreshold (h : LoadHead) (entries : List ThresholdEntry) (s : State) : Verdict :=
  match failing (fun _ t => thresholdOk t) h.first entries with
  | some i => badTable i s
  | none =>
    let s1 := loadChannels h.first entries s
    done .empty (if takesEffect h.first h.count s then acquire s1 else s1)

/-- TABLE_LOAD_THRESHOLD (R40, R41, R198). -/
def afterTableLoadThreshold (h : LoadHead) (entries : List ThresholdEntry) (s : State) : State :=
  runLoad (.tableLoadThreshold h entries) h 16 entries.length (loadThreshold h entries) s

/-! ### CAPTURE (R61) -/

/-- The checks of a CAPTURE entry (R61). -/
def captureOk (e : CaptureEntry) : Bool :=
  (e.pre == 1 || e.pre == 2 || e.pre == 4 || e.pre == 8) && decide (1 ≤ e.post ∧ e.post ≤ 16)

/-- A CAPTURE entry that takes effect; another pre empties the ring (R61, R62). -/
def CaptureSlot.load (e : CaptureEntry) (c : CaptureSlot) : CaptureSlot :=
  if e.pre = c.entry.pre then { c with entry := e } else { c.emptyRing with entry := e }

/-- Entries given to the slots from a number on (R61). -/
def loadCaptures : Nat → List CaptureEntry → State → State
  | _, [], s => s
  | n, e :: rest, s =>
    match slotOf n with
    | none => s
    | some i => loadCaptures (n + 1) rest (s.setCap i ((s.cap i).load e))

/-- The judgement of a CAPTURE load (R61). -/
def loadCapture (h : LoadHead) (entries : List CaptureEntry) (s : State) : Verdict :=
  match failing (fun _ e => captureOk e) h.first entries with
  | some i => badTable i s
  | none =>
    if indexes.any (fun i => decide (h.first ≤ i.val ∧ i.val < h.first + h.count) && (s.cap i).phase != .idle) then
      refuse .busy s
    else done .empty (loadCaptures h.first entries s)

/-- TABLE_LOAD_CAPTURE (R61, R198). -/
def afterTableLoadCapture (h : LoadHead) (entries : List CaptureEntry) (s : State) : State :=
  runLoad (.tableLoadCapture h entries) h 4 entries.length (loadCapture h entries) s

/-! ### BIN and HARMONIC (R80 to R82) -/

/-- The pair that a BIN or HARMONIC load is written over: the staged pair, or the tables in force (R80, R82). -/
def HarmonicEngine.tables (h : HarmonicEngine) : List (Option Nat) × HarmonicParams := h.staged.getD (h.bins, h.params)

/-- A pair of tables that takes effect at once with no site OPEN, and is staged otherwise (R82). -/
def setTables (b : List (Option Nat)) (p : HarmonicParams) (s : State) : State :=
  if s.openSite.isSome then s.setHarmonic { s.harmonic with staged := some (b, p) }
  else s.setHarmonic { s.harmonic with bins := b, params := p, staged := none }

/-- Whether a place of the BIN table passes checks 1 to 4 of R80, in the table as it would stand. -/
def binOk (table : List (Option Nat)) (first count p : Nat) (x : Option Nat) : Bool :=
  match x with
  | none => p != 0
  | some k =>
    (!decide (first ≤ p ∧ p < first + count) || decide (1 ≤ k ∧ k ≤ 63)) &&
      (if p = 0 then k == 1
       else (table.take p).all (fun y => y.isSome) && (match table.getD (p - 1) none with | some j => decide (j < k) | none => false))

/-- The judgement of a BIN load (R80, R82). -/
def loadBin (h : LoadHead) (entries : List (Option Nat)) (s : State) : Verdict :=
  let t := overlay h.first entries s.harmonic.tables.1
  match failing (binOk t h.first h.count) 0 t with
  | some i => badTable i s
  | none => done .empty (setTables t s.harmonic.tables.2 s)

/-- TABLE_LOAD_BIN (R80, R198). -/
def afterTableLoadBin (h : LoadHead) (entries : List (Option Nat)) (s : State) : State :=
  runLoad (.tableLoadBin h entries) h 24 entries.length (loadBin h entries) s

/-- The check of a HARMONIC entry: M of entry 16 is 1..255 (R81). -/
def harmonicOk (i : Nat) (e : HarmonicEntry) : Bool := i != 16 || decide (1 ≤ e.m ∧ e.m ≤ 255)

/-- HARMONIC entries written from an index on (R81). -/
def writeHarmonic : Nat → List HarmonicEntry → HarmonicParams → HarmonicParams
  | _, [], p => p
  | i, e :: rest, p =>
    writeHarmonic (i + 1) rest
      (if i = 16 then { p with m := e.m, exclude := e.flag } else { p with watch := p.watch.set i e.flag })

/-- The judgement of a HARMONIC load (R81, R82). -/
def loadHarmonic (h : LoadHead) (entries : List HarmonicEntry) (s : State) : Verdict :=
  match failing harmonicOk h.first entries with
  | some i => badTable i s
  | none => done .empty (setTables s.harmonic.tables.1 (writeHarmonic h.first entries s.harmonic.tables.2) s)

/-- TABLE_LOAD_HARMONIC (R81, R198). -/
def afterTableLoadHarmonic (h : LoadHead) (entries : List HarmonicEntry) (s : State) : State :=
  runLoad (.tableLoadHarmonic h entries) h 17 entries.length (loadHarmonic h entries) s

/-! ### TEMPLATE (R145) -/

/-- The checks of a template line (R145). -/
def lineOk : TemplateLine → Bool
  | .text t => decide (t.length ≤ 32)
  | .siteHeader => true
  | .episodeList d r => decide (d ≤ 65535 ∧ 1 ≤ r ∧ r ≤ 64)
  | .harmonicTable c => decide (c < 16)
  | .noteList _ => true
  | .rule => true
  | .feed n => decide (1 ≤ n ∧ n ≤ 8)
  | .unknown _ => false

/-- The checks of a template (R145). -/
def templateOk (t : List TemplateLine) : Bool := decide (t.length ≤ 32) && t.all lineOk

/-- A line as it is taken in (R145). -/
def takeLine : TemplateLine → TemplateLine
  | .text t => .text (t.map printable)
  | l => l

/-- Templates written from an index on (R145). -/
def writeTemplates : Nat → List (List TemplateLine) → Quad (List TemplateLine) → Quad (List TemplateLine)
  | _, [], q => q
  | i, t :: rest, q =>
    match slotOf i with
    | none => q
    | some k => writeTemplates (i + 1) rest (q.set k (t.map takeLine))

/-- The judgement of a TEMPLATE load (R145). -/
def loadTemplate (h : LoadHead) (entries : List (List TemplateLine)) (s : State) : Verdict :=
  match failing (fun _ t => templateOk t) h.first entries with
  | some i => badTable i s
  | none =>
    if s.print.jobs.any (fun j => decide (h.first ≤ j.template.val ∧ j.template.val < h.first + h.count)) then
      refuse .busy s
    else done .empty (s.setPrint { s.print with templates := writeTemplates h.first entries s.print.templates })

/-- TABLE_LOAD_TEMPLATE (R145, R198). -/
def afterTableLoadTemplate (h : LoadHead) (entries : List (List TemplateLine)) (s : State) : State :=
  runLoad (.tableLoadTemplate h entries) h 4 entries.length (loadTemplate h entries) s

/-! ### PRINT_TIMING (R147) -/

/-- A field of the PRINT_TIMING entry in its range. -/
def tickOk (n : Nat) : Bool := decide (1 ≤ n ∧ n ≤ 4095)

/-- The checks of the PRINT_TIMING entry (R147): every field in its range, whatever L_t is (log 56), and the order of the ticks
unless L_t is 1. -/
def timingOk (e : TimingEntry) : Bool :=
  tickOk e.lt && tickOk e.strobeStart && tickOk e.strobeEnd && tickOk e.step &&
    (e.lt == 1 || decide (1 < e.strobeStart ∧ e.strobeStart < e.strobeEnd ∧ e.strobeEnd ≤ e.lt ∧ 1 < e.step ∧ e.step ≤ e.lt))

/-- L_t becomes 1 (R147): the head job, if ACTIVE or STALLED, ends FAILED, with a pending cancel answered; a period and a
feed stop at once; the generator is HELD. -/
def withdrawTiming (s : State) : State :=
  match s.print.jobs with
  | j :: _ =>
    if j.state = .queued then s.setPrint { s.print with gen := restGen s.print, strobe := false }
    else endJob .failed .timingWithdrawn (answerCancel s)
  | [] => s.setPrint { s.print with gen := restGen s.print, strobe := false }

/-- The PRINT_TIMING entry taken, with what its L_t does to the generator (R147). A running period keeps its own values.
Log 20. -/
def takeTiming (e : TimingEntry) (s : State) : State :=
  let before := s.print.held
  let s1 := s.setPrint { s.print with timing := e }
  if e.lt = 1 then (if before then s1 else withdrawTiming s1)
  else if before then activateHead (s1.setPrint { s1.print with gen := restGen s1.print })
  else s1

/-- The judgement of a PRINT_TIMING load (R147). -/
def loadTiming (h : LoadHead) (entries : List TimingEntry) (s : State) : Verdict :=
  match failing (fun _ e => timingOk e) h.first entries, entries with
  | some i, _ => badTable i s
  | none, e :: _ => done .empty (arbitrate (takeTiming e s))
  | none, [] => refuse .badParam s

/-- TABLE_LOAD_PRINT_TIMING (R147, R198). -/
def afterTableLoadPrintTiming (h : LoadHead) (entries : List TimingEntry) (s : State) : State :=
  runLoad (.tableLoadPrintTiming h entries) h 1 entries.length (loadTiming h entries) s

/-! ### TABLE_READ (R198) -/

/-- A HARMONIC entry of a table (R81). -/
def HarmonicParams.entry (p : HarmonicParams) (i : Nat) : HarmonicEntry :=
  if i = 16 then ⟨p.m, p.exclude⟩ else ⟨0, p.watch.getD i false⟩

/-- A table as TABLE_READ returns it (R30, R41, R61, R82, R145, R147, R199). -/
def tableEntries (t : TableId) (s : State) : List TableEntry :=
  match t with
  | .survey => [.survey s.survey]
  | .reference => s.tracker.table.toList.map .reference
  | .threshold =>
    channels.map (fun c => .threshold ((s.chan c).staged.getD (s.chan c).inForce) (s.chan c).staged.isSome)
  | .capture => s.capture.toList.map (fun c => .capture c.entry)
  | .bin => s.harmonic.tables.1.map (fun b => .bin b s.harmonic.staged.isSome)
  | .harmonic => (List.range 17).map (fun i => .harmonic (s.harmonic.tables.2.entry i) s.harmonic.staged.isSome)
  | .template => s.print.templates.toList.map .template
  | .printTiming => [.printTiming s.print.timing]

/-- How many entries of a run a reply returns: as many as fit, at least one (R198). -/
def returnedCount (run : List TableEntry) : Nat := min run.length (max 1 (Config.entriesThatFit run))

/-- The judgement of TABLE_READ (R198). -/
def judgeTableRead (table : Option TableId) (first count : Nat) (s : State) : Verdict :=
  match table with
  | none => refuse .badParam s
  | some t =>
    let all := tableEntries t s
    if count = 0 ∨ all.length < first + count then refuse .badParam s
    else
      let run := (all.drop first).take count
      done (.table (returnedCount run) (run.take (returnedCount run))) s

/-- TABLE_READ (R198). -/
def afterTableRead (e : Envelope) (table : Option TableId) (first count : Nat) (s : State) : State :=
  runCommand (.tableRead e table first count) e 2 (judgeTableRead table first count) s

end Sys2Proof.Machine
end

