-- ==== Sys2Proof/Machine/SystemRows.lean ====
section
/-! DEFINITION. STATUS, CLOCK_SET and SOFT_RESET (R200 to R202). -/

namespace Sys2Proof.Machine

open Sys2Proof

/-! ### STATUS (R201) -/

/-- The diagnostic counters in the order of R201. -/
def counters (s : State) : List Nat :=
  [s.session.stray, s.session.controlDrops, s.session.podReplyDrops, s.session.upDrops, s.session.laneResyncs] ++
    s.session.slots.toList.map (fun p => p.ingressDrops) ++
    [s.tracker.chatter, s.tracker.forcedCloses, s.episodes.lost, s.episodes.skips, s.harmonic.late, s.harmonic.lost,
      s.store.reclaimed, s.print.underruns, s.dport.crcErrorsU, s.dport.crcErrorsD, s.dport.frameErrorsU,
      s.dport.frameErrorsD, s.dport.passthroughDrops, s.cmd.overflows]

/-- A slot as STATUS gives it (R1). -/
def slotStatus (p : PodSlot) : SlotStatus := ⟨p.phase, p.serial, p.kinds, p.clipped, p.passthrough⟩

/-- A channel as STATUS gives it (R37). -/
def channelStatus (c : ChannelState) : ChannelStatus := ⟨c.held, c.state, c.inForce, c.staged.isSome⟩

/-- The open episode as STATUS gives it (R49). -/
def episodeStatus (e : Episode) : EpisodeStatus :=
  ⟨e.number, e.firstBoundary, e.events.length, e.openChannels.length, e.dropped⟩

/-- A capture slot as STATUS gives it (R63), `busy` bytes of its staging being in the burst in progress. -/
def captureStatus (c : CaptureSlot) (busy : Nat) : CaptureStatus where
  phase := c.phase
  recordId := c.recordId
  episodes := c.episodes
  kinds := c.kinds
  first := c.first
  halfCycles := c.halfCycles
  remaining := c.remaining
  preUnread := c.preUnread
  readPos := c.readPos
  counts := c.counts
  heldRun := c.heldRun
  stagingFill := itemsSize c.staging + busy
  flags := c.flags
  pending := c.pending
  ringFill := c.ring.length

/-- A scheduled window as STATUS gives it (R83). -/
def windowStatus (w : Window) : WindowStatus := ⟨w.start, w.stop, w.done⟩

/-- The current interval as STATUS gives it (R83). -/
def intervalStatus (v : Interval) : IntervalStatus := ⟨v.windows, v.channels.map (fun a => a.chan)⟩

/-- The readout as STATUS gives it: its record id and next offset, or none (R105). -/
def readoutStatus (r : Readout) : Option (Nat × Nat) := if r.state = .none then none else some (r.id, r.next)

/-- The sections of STATUS (R201). -/
def statusView (x : StatusSection) (paper : Paper) (head : Head) (s : State) : StatusView :=
  match x with
  | .part =>
    .part s.store.parkState s.store.retention s.instant s.clock.seconds s.clock.isSet s.cmd.queue.length
      s.cmd.waiting.isSome (counters s)
  | .sessions => .sessions (s.session.slots.toList.map slotStatus) s.session.event
  | .tracker =>
    .tracker s.tracker.mode s.tracker.reference s.tracker.position s.tracker.newest s.tracker.lPrev
      s.tracker.handoverCount s.tracker.change s.tracker.chatter s.tracker.forcedCloses
  | .detector =>
    .detector (channels.map (fun c => channelStatus (s.chan c))) (s.episodes.current.map episodeStatus)
      s.episodes.outbox.length
  | .capture => .capture (indexes.map (fun i => captureStatus (s.cap i) (busyBytes s i)))
  | .harmonic =>
    .harmonic (s.harmonic.schedule.map windowStatus) (s.harmonic.current.map intervalStatus) s.harmonic.ending.isSome
      s.harmonic.outbox.length s.harmonic.late s.harmonic.lost s.harmonic.staged.isSome
  | .store =>
    .store (freeCount s) (claimed s).length s.store.dir.length
      (s.store.dir.filter (fun e => e.state == .writing)).length s.store.nextId s.store.lowMark s.store.qp s.store.qs
      (storeLow s) s.store.parkState s.store.retention (readoutStatus s.store.readout) s.store.reclaimed
  | .sites =>
    .sites (s.openSite.map (fun e => e.id)) s.sites.registry.length s.sites.notes.length s.sites.nextNote
  | .print => .print s.print.gen.mode paper head s.print.jobs.length s.print.underruns
  | .notices =>
    .notices s.notices.requests s.notices.masked s.notices.service s.notices.mode s.notices.base.val s.notices.polling
      s.notices.offered s.notices.waiting
  | .dport =>
    .dport s.dport.passthrough.length s.dport.reply.length s.dport.periodic.length s.dport.record.length
      (s.dport.sendBuffer.map (fun x => (x.1.id, x.2))) s.dport.hold
      [s.dport.crcErrorsU, s.dport.crcErrorsD, s.dport.frameErrorsU, s.dport.frameErrorsD, s.dport.passthroughDrops]

/-- The judgement of STATUS (R201). -/
def judgeStatus (sel : Option StatusSection) (paper : Paper) (head : Head) (s : State) : Verdict :=
  match sel with
  | none => refuse .badParam s
  | some x => done (.status (statusView x paper head s)) s

/-- STATUS (R201). -/
def afterStatus (e : PrinterEnvelope) (sel : Option StatusSection) (s : State) : State :=
  runCommand (.status e sel) e.toEnvelope 3 (judgeStatus sel e.paper e.head) s

/-! ### CLOCK_SET (R200) -/

/-- The judgement of CLOCK_SET (R200). -/
def judgeClockSet (seconds : BitVec 32) (s : State) : Verdict :=
  done (.clockSet s.clock.seconds seconds.toNat) (s.setClock ⟨seconds.toNat, true, 0⟩)

/-- CLOCK_SET (R200). -/
def afterClockSet (e : Envelope) (seconds : BitVec 32) (s : State) : State :=
  runCommand (.clockSet e seconds) e 4 (judgeClockSet seconds) s

/-! ### SOFT_RESET (R202) -/

/-- A slot after SOFT_RESET: EMPTY, with its passthrough flag kept (R19). -/
def PodSlot.softReset (p : PodSlot) : PodSlot := { PodSlot.reset with passthrough := p.passthrough }

/-- The session unit at SOFT_RESET (R19): the upstream queue is emptied, then DETACH placed for every slot not EMPTY, slot 0
first (log 43); a frame in flight is finished. -/
def resetSession (s : State) : State :=
  let s1 := indexes.foldl sendDetach (s.setSession { s.session with up := [], upDrops := 0 })
  s1.setSession
    { SessionUnit.reset with
      slots := s1.session.slots.map PodSlot.softReset
      up := s1.session.up
      upInFlight := s1.session.upInFlight }

/-- A channel after SOFT_RESET (R59). -/
def ChannelState.softReset (c : ChannelState) : ChannelState := c.toNormal.sessionEnd

/-- The capture slot after SOFT_RESET (R79). -/
def CaptureSlot.softReset (c : CaptureSlot) : CaptureSlot := { CaptureSlot.reset with entry := c.entry }

/-- The store at SOFT_RESET (R125): every WRITING entry dropped, in ascending record id (log 69), every hold
removed, the readout and the arbiter at rest. -/
def resetStore (s : State) : State :=
  let writing := s.store.dir.filter (fun e => e.state == .writing)
  let s1 := writing.foldl (fun s e => updateSite e.site SiteEntry.dropRecord s) s
  mapStore
    (fun st =>
      { st with
        dir := (st.dir.filter (fun e => e.state != .writing)).map (fun e => { e with holds := 0 })
        free := st.free ++ writing.flatMap (fun e => e.chain)
        holder := .none
        used := 0
        burst := none
        readout := Readout.reset
        reclaimed := 0 })
    s1

/-- The print engine at SOFT_RESET (R166): every job ends CANCELLED with reason RESET, in queue order. -/
def PrintEngine.softReset (p : PrintEngine) : PrintEngine :=
  let q := p.jobs.foldl (fun q j => PrintEngine.finish j .cancelled .reset q) p
  { q.clear with jobs := [], deferred := [], underruns := 0 }

/-- The notice unit at SOFT_RESET, before the level sources are followed (R180). -/
def NoticeUnit.softReset (n : NoticeUnit) : NoticeUnit :=
  { n with requests := 0, service := [], offered := none, base := 0, waiting := !n.polling }

/-- The D-port at SOFT_RESET (R194): a frame in flight is finished. -/
def DPort.softReset (d : DPort) : DPort := { DPort.reset with inFlight := d.inFlight }

/-- SOFT_RESET taken as one step in every block (R202). -/
def softReset (s : State) : State :=
  let s1 := resetSession (trackerSoftReset s)
  let s2 := s1.setDetector (s1.detector.map (fun q => q.map ChannelState.softReset))
  let s3 := s2.setEpisodes EpisodeUnit.reset
  let s4 := (s3.setCapture (s3.capture.map CaptureSlot.softReset)).setHarmonic s3.harmonic.softReset
  let s5 := resetStore s4
  let s6 := s5.setSites { s5.sites with registry := s5.sites.registry.map (fun e => { e with pending := 0 }) }
  let s7 := s6.setPrint s6.print.softReset
  let s8 := (s7.setNotices s7.notices.softReset).setDport s7.dport.softReset
  followStoreLow (s8.setCmd { s8.cmd with overflows := 0 })

/-- The judgement of SOFT_RESET (R202). -/
def judgeSoftReset (s : State) : Verdict := done .empty (softReset s)

/-- SOFT_RESET (R202). -/
def afterSoftReset (e : Envelope) (s : State) : State :=
  runCommand (.softReset e) e 5 (unlessParked judgeSoftReset) s

end Sys2Proof.Machine
end

