-- ==== Sys2Proof/Machine/Meanings.lean ====
section
/-! DEFINITION. The meaning of each row of the table: the part after it. No row stops the part. -/

namespace Sys2Proof.Machine

open Sys2Proof

/-- What a meaning answers. -/
abbrev Answer := Host.Outcome State Fault Refusal

/-- POWER_ON (R203). -/
def execPowerOn (s : State) : Answer := .next (afterPowerOn s)

/-- INSTANT_ADVANCE (R14). -/
def execInstantAdvance (s : State) : Answer := .next (afterInstantAdvance s)

/-- SURVEY_CLOCK_TICK (R200). -/
def execSurveyClockTick (s : State) : Answer := .next (afterSurveyClockTick s)

/-- DEBOUNCE_TIMER_EXPIRY (R3). -/
def execDebounceTimerExpiry (slot : Slot) (s : State) : Answer := .next (afterDebounceTimerExpiry slot s)

/-- QUIET_TIMER_EXPIRY (R6). -/
def execQuietTimerExpiry (slot : Slot) (s : State) : Answer := .next (afterQuietTimerExpiry slot s)

/-- SAMPLE (R12). -/
def execSample (f : SampleFrame) (s : State) : Answer := .next (afterSample f s)

/-- CONTROL_FRAME_RECEIVE (R182). -/
def execControlFrameReceive (f : ControlFrame) (s : State) : Answer := .next (afterControlFrameReceive f s)

/-- U_FRAME_REJECT (R181). -/
def execUFrameReject (f : LineFrame) (s : State) : Answer := .next (afterUFrameReject f s)

/-- ATTACH (R2). -/
def execAttach (s : State) : Answer := .next (afterAttach s)

/-- STATUS_FRAME (R9). -/
def execStatusFrame (s : State) : Answer := .next (afterStatusFrame s)

/-- POD_NOTICE (R10). -/
def execPodNotice (s : State) : Answer := .next (afterPodNotice s)

/-- POD_REPLY (R11). -/
def execPodReply (s : State) : Answer := .next (afterPodReply s)

/-- LANE_INSTANT (R15). -/
def execLaneInstant (slot : Slot) (s : State) : Answer := .next (afterLaneInstant slot s)

/-- CAPTURE_PRE_READ (R66). -/
def execCapturePreRead (slot : Slot) (s : State) : Answer := .next (afterCapturePreRead slot s)

/-- HELD_GAP_RUN_PLACE (R64). -/
def execHeldGapRunPlace (slot : Slot) (s : State) : Answer := .next (afterHeldGapRunPlace slot s)

/-- EPISODE_WRITE_START (R107). -/
def execEpisodeWriteStart (s : State) : Answer := .next (afterEpisodeWriteStart s)

/-- HARMONIC_WRITE_START (R98). -/
def execHarmonicWriteStart (s : State) : Answer := .next (afterHarmonicWriteStart s)

/-- STORE_BURST_END (R113). -/
def execStoreBurstEnd (paper : Paper) (s : State) : Answer := .next (afterStoreBurstEnd paper s)

/-- READOUT_FRAME_PLACE (R119). -/
def execReadoutFramePlace (s : State) : Answer := .next (afterReadoutFramePlace s)

/-- COMPOSER_ROW (R152). -/
def execComposerRow (paper : Paper) (s : State) : Answer := .next (afterComposerRow paper s)

/-- PRINT_PERIOD_END (R160). -/
def execPrintPeriodEnd (paper : Paper) (s : State) : Answer := .next (afterPrintPeriodEnd paper s)

/-- STROBE_START (R161). -/
def execStrobeStart (head : Head) (s : State) : Answer := .next (afterStrobeStart head s)

/-- STROBE_END (R160). -/
def execStrobeEnd (s : State) : Answer := .next (afterStrobeEnd s)

/-- MOTOR_STEP (R160). -/
def execMotorStep (s : State) : Answer := .next (afterMotorStep s)

/-- HEAD_OK (R161). -/
def execHeadOk (s : State) : Answer := .next (afterHeadOk s)

/-- PAPER_PRESENT (R162). -/
def execPaperPresent (s : State) : Answer := .next (afterPaperPresent s)

/-- OFFER_RETRY (R174). -/
def execOfferRetry (s : State) : Answer := .next (afterOfferRetry s)

/-- REPLY_PLACE (R197). -/
def execReplyPlace (s : State) : Answer := .next (afterReplyPlace s)

/-- DEFERRED_REPLY_PLACE (R163). -/
def execDeferredReplyPlace (s : State) : Answer := .next (afterDeferredReplyPlace s)

/-- D_FRAME_END (R185). -/
def execDFrameEnd (s : State) : Answer := .next (afterDFrameEnd s)

/-- U_FRAME_END (R192). -/
def execUFrameEnd (s : State) : Answer := .next (afterUFrameEnd s)

/-- COMMAND (R196). -/
def execCommand (c : Instr) (s : State) : Answer := .next (afterCommand c s)

/-- D_FRAME_REJECT (R181). -/
def execDFrameReject (f : LineFrame) (s : State) : Answer := .next (afterDFrameReject f s)

/-- UNKNOWN_COMMAND (R195). -/
def execUnknownCommand (tag : BitVec 16) (code : Byte) (s : State) : Answer := .next (afterUnknownCommand tag code s)

/-- FORWARDED_COMMAND (R11). -/
def execForwardedCommand (tag : BitVec 16) (target : Byte) (code : Byte) (body : List Byte) (s : State) : Answer :=
  .next (afterForwardedCommand tag target code body s)

/-- TABLE_LOAD_SURVEY (R199). -/
def execTableLoadSurvey (h : LoadHead) (entries : List SurveyEntry) (s : State) : Answer :=
  .next (afterTableLoadSurvey h entries s)

/-- TABLE_LOAD_REFERENCE (R30). -/
def execTableLoadReference (h : LoadHead) (entries : List (Option Nat)) (s : State) : Answer :=
  .next (afterTableLoadReference h entries s)

/-- TABLE_LOAD_THRESHOLD (R40). -/
def execTableLoadThreshold (h : LoadHead) (entries : List ThresholdEntry) (s : State) : Answer :=
  .next (afterTableLoadThreshold h entries s)

/-- TABLE_LOAD_CAPTURE (R61). -/
def execTableLoadCapture (h : LoadHead) (entries : List CaptureEntry) (s : State) : Answer :=
  .next (afterTableLoadCapture h entries s)

/-- TABLE_LOAD_BIN (R80). -/
def execTableLoadBin (h : LoadHead) (entries : List (Option Nat)) (s : State) : Answer :=
  .next (afterTableLoadBin h entries s)

/-- TABLE_LOAD_HARMONIC (R81). -/
def execTableLoadHarmonic (h : LoadHead) (entries : List HarmonicEntry) (s : State) : Answer :=
  .next (afterTableLoadHarmonic h entries s)

/-- TABLE_LOAD_TEMPLATE (R145). -/
def execTableLoadTemplate (h : LoadHead) (entries : List (List TemplateLine)) (s : State) : Answer :=
  .next (afterTableLoadTemplate h entries s)

/-- TABLE_LOAD_PRINT_TIMING (R147). -/
def execTableLoadPrintTiming (h : LoadHead) (entries : List TimingEntry) (s : State) : Answer :=
  .next (afterTableLoadPrintTiming h entries s)

/-- TABLE_READ (R198). -/
def execTableRead (e : Envelope) (table : Option TableId) (first count : Nat) (s : State) : Answer :=
  .next (afterTableRead e table first count s)

/-- STATUS (R201). -/
def execStatus (e : PrinterEnvelope) (sel : Option StatusSection) (s : State) : Answer := .next (afterStatus e sel s)

/-- CLOCK_SET (R200). -/
def execClockSet (e : Envelope) (seconds : BitVec 32) (s : State) : Answer := .next (afterClockSet e seconds s)

/-- SOFT_RESET (R202). -/
def execSoftReset (e : Envelope) (s : State) : Answer := .next (afterSoftReset e s)

/-- HOLD (R190). -/
def execHold (e : Envelope) (s : State) : Answer := .next (afterHold e s)

/-- RELEASE (R191). -/
def execRelease (e : Envelope) (s : State) : Answer := .next (afterRelease e s)

/-- POD_DETACH (R5). -/
def execPodDetach (e : Envelope) (slot : Nat) (s : State) : Answer := .next (afterPodDetach e slot s)

/-- SLOT_PASSTHROUGH (R13). -/
def execSlotPassthrough (e : Envelope) (slot : Nat) (on : Bool) (s : State) : Answer :=
  .next (afterSlotPassthrough e slot on s)

/-- CAPTURE_FORCE (R76). -/
def execCaptureForce (e : Envelope) (slot n : Nat) (s : State) : Answer := .next (afterCaptureForce e slot n s)

/-- SITE_OPEN (R129). -/
def execSiteOpen (e : Envelope) (site : Nat) (name : Text) (s : State) : Answer := .next (afterSiteOpen e site name s)

/-- SITE_CLOSE (R130). -/
def execSiteClose (e : Envelope) (s : State) : Answer := .next (afterSiteClose e s)

/-- SITE_FORGET (R132). -/
def execSiteForget (e : Envelope) (site : Nat) (s : State) : Answer := .next (afterSiteForget e site s)

/-- SITE_LIST (R133). -/
def execSiteList (e : Envelope) (s : State) : Answer := .next (afterSiteList e s)

/-- NOTE_ADD (R136). -/
def execNoteAdd (e : Envelope) (site : Nat) (tags : BitVec 32) (text : Text) (links : List Nat) (s : State) : Answer :=
  .next (afterNoteAdd e site tags text links s)

/-- NOTE_LINK (R138). -/
def execNoteLink (e : Envelope) (note record : Nat) (s : State) : Answer := .next (afterNoteLink e note record s)

/-- NOTE_UNLINK (R139). -/
def execNoteUnlink (e : Envelope) (note record : Nat) (s : State) : Answer := .next (afterNoteUnlink e note record s)

/-- NOTE_DELETE (R140). -/
def execNoteDelete (e : Envelope) (note : Nat) (s : State) : Answer := .next (afterNoteDelete e note s)

/-- NOTE_READ (R141). -/
def execNoteRead (e : Envelope) (note : Nat) (s : State) : Answer := .next (afterNoteRead e note s)

/-- NOTE_LIST (R142). -/
def execNoteList (e : Envelope) (site : Option Nat) (filter : BitVec 32) (start : Nat) (s : State) : Answer :=
  .next (afterNoteList e site filter start s)

/-- RECORD_LIST (R116). -/
def execRecordList (e : Envelope) (site : Option Nat) (kind : Option RecordKind) (start : Nat) (s : State) : Answer :=
  .next (afterRecordList e site kind start s)

/-- RECORD_READ (R117). -/
def execRecordRead (e : Envelope) (record offset : Nat) (s : State) : Answer :=
  .next (afterRecordRead e record offset s)

/-- RECORD_ERASE (R120). -/
def execRecordErase (e : Envelope) (record : Nat) (s : State) : Answer := .next (afterRecordErase e record s)

/-- STORE_WIPE (R121). -/
def execStoreWipe (e : Envelope) (s : State) : Answer := .next (afterStoreWipe e s)

/-- STORE_CONFIG (R115). -/
def execStoreConfig (e : Envelope) (low : Nat) (qp qs : BitVec 4) (s : State) : Answer :=
  .next (afterStoreConfig e low qp qs s)

/-- PARK (R123). -/
def execPark (e : Envelope) (retention : Option Retention) (s : State) : Answer := .next (afterPark e retention s)

/-- RESUME (R124). -/
def execResume (e : Envelope) (s : State) : Answer := .next (afterResume e s)

/-- PRINT_SUBMIT (R149). -/
def execPrintSubmit (e : Envelope) (template site : Nat) (s : State) : Answer :=
  .next (afterPrintSubmit e template site s)

/-- PRINT_CANCEL (R163). -/
def execPrintCancel (e : PrinterEnvelope) (job : Nat) (s : State) : Answer := .next (afterPrintCancel e job s)

/-- PRINT_LIST (R151). -/
def execPrintList (e : PrinterEnvelope) (s : State) : Answer := .next (afterPrintList e s)

/-- PAPER_FEED (R165). -/
def execPaperFeed (e : PrinterEnvelope) (n : Nat) (s : State) : Answer := .next (afterPaperFeed e n s)

/-- NOTICE_ACK (R175). -/
def execNoticeAck (e : Envelope) (s : State) : Answer := .next (afterNoticeAck e s)

/-- NOTICE_POLL (R175). -/
def execNoticePoll (e : Envelope) (s : State) : Answer := .next (afterNoticePoll e s)

/-- NOTICE_END (R177). -/
def execNoticeEnd (e : Envelope) (source : Option Nat) (s : State) : Answer := .next (afterNoticeEnd e source s)

/-- NOTICE_MASK (R179). -/
def execNoticeMask (e : Envelope) (mask : BitVec 12) (s : State) : Answer := .next (afterNoticeMask e mask s)

/-- NOTICE_MODE (R179). -/
def execNoticeMode (e : Envelope) (mode : Option NoticeMode) (s : State) : Answer := .next (afterNoticeMode e mode s)

/-- NOTICE_POLLING (R179). -/
def execNoticePolling (e : Envelope) (on : Bool) (s : State) : Answer := .next (afterNoticePolling e on s)

end Sys2Proof.Machine
end

