-- ==== Sys2Proof/Machine/Dispatch.lean ====
section
/-! DEFINITION. One arm for each row of the table, each a direct call of the row's meaning. -/

namespace Sys2Proof.Machine

open Sys2Proof

def exec (i : Instr) (s : State) : Host.Outcome State Fault Refusal :=
  match i with
  | .powerOn => Sys2Proof.Machine.execPowerOn s
  | .instantAdvance => Sys2Proof.Machine.execInstantAdvance s
  | .surveyClockTick => Sys2Proof.Machine.execSurveyClockTick s
  | .debounceTimerExpiry slot => Sys2Proof.Machine.execDebounceTimerExpiry slot s
  | .quietTimerExpiry slot => Sys2Proof.Machine.execQuietTimerExpiry slot s
  | .sample f => Sys2Proof.Machine.execSample f s
  | .controlFrameReceive f => Sys2Proof.Machine.execControlFrameReceive f s
  | .uFrameReject f => Sys2Proof.Machine.execUFrameReject f s
  | .attach => Sys2Proof.Machine.execAttach s
  | .statusFrame => Sys2Proof.Machine.execStatusFrame s
  | .podNotice => Sys2Proof.Machine.execPodNotice s
  | .podReply => Sys2Proof.Machine.execPodReply s
  | .laneInstant slot => Sys2Proof.Machine.execLaneInstant slot s
  | .capturePreRead slot => Sys2Proof.Machine.execCapturePreRead slot s
  | .heldGapRunPlace slot => Sys2Proof.Machine.execHeldGapRunPlace slot s
  | .episodeWriteStart => Sys2Proof.Machine.execEpisodeWriteStart s
  | .harmonicWriteStart => Sys2Proof.Machine.execHarmonicWriteStart s
  | .storeBurstEnd paper => Sys2Proof.Machine.execStoreBurstEnd paper s
  | .readoutFramePlace => Sys2Proof.Machine.execReadoutFramePlace s
  | .composerRow paper => Sys2Proof.Machine.execComposerRow paper s
  | .printPeriodEnd paper => Sys2Proof.Machine.execPrintPeriodEnd paper s
  | .strobeStart head => Sys2Proof.Machine.execStrobeStart head s
  | .strobeEnd => Sys2Proof.Machine.execStrobeEnd s
  | .motorStep => Sys2Proof.Machine.execMotorStep s
  | .headOk => Sys2Proof.Machine.execHeadOk s
  | .paperPresent => Sys2Proof.Machine.execPaperPresent s
  | .offerRetry => Sys2Proof.Machine.execOfferRetry s
  | .replyPlace => Sys2Proof.Machine.execReplyPlace s
  | .deferredReplyPlace => Sys2Proof.Machine.execDeferredReplyPlace s
  | .dFrameEnd => Sys2Proof.Machine.execDFrameEnd s
  | .uFrameEnd => Sys2Proof.Machine.execUFrameEnd s
  | .command c => Sys2Proof.Machine.execCommand c s
  | .dFrameReject f => Sys2Proof.Machine.execDFrameReject f s
  | .unknownCommand tag code => Sys2Proof.Machine.execUnknownCommand tag code s
  | .forwardedCommand tag target code body => Sys2Proof.Machine.execForwardedCommand tag target code body s
  | .tableLoadSurvey h entries => Sys2Proof.Machine.execTableLoadSurvey h entries s
  | .tableLoadReference h entries => Sys2Proof.Machine.execTableLoadReference h entries s
  | .tableLoadThreshold h entries => Sys2Proof.Machine.execTableLoadThreshold h entries s
  | .tableLoadCapture h entries => Sys2Proof.Machine.execTableLoadCapture h entries s
  | .tableLoadBin h entries => Sys2Proof.Machine.execTableLoadBin h entries s
  | .tableLoadHarmonic h entries => Sys2Proof.Machine.execTableLoadHarmonic h entries s
  | .tableLoadTemplate h entries => Sys2Proof.Machine.execTableLoadTemplate h entries s
  | .tableLoadPrintTiming h entries => Sys2Proof.Machine.execTableLoadPrintTiming h entries s
  | .tableRead e table first count => Sys2Proof.Machine.execTableRead e table first count s
  | .status e sel => Sys2Proof.Machine.execStatus e sel s
  | .clockSet e seconds => Sys2Proof.Machine.execClockSet e seconds s
  | .softReset e => Sys2Proof.Machine.execSoftReset e s
  | .hold e => Sys2Proof.Machine.execHold e s
  | .release e => Sys2Proof.Machine.execRelease e s
  | .podDetach e slot => Sys2Proof.Machine.execPodDetach e slot s
  | .slotPassthrough e slot on => Sys2Proof.Machine.execSlotPassthrough e slot on s
  | .captureForce e slot n => Sys2Proof.Machine.execCaptureForce e slot n s
  | .siteOpen e site name => Sys2Proof.Machine.execSiteOpen e site name s
  | .siteClose e => Sys2Proof.Machine.execSiteClose e s
  | .siteForget e site => Sys2Proof.Machine.execSiteForget e site s
  | .siteList e => Sys2Proof.Machine.execSiteList e s
  | .noteAdd e site tags text links => Sys2Proof.Machine.execNoteAdd e site tags text links s
  | .noteLink e note record => Sys2Proof.Machine.execNoteLink e note record s
  | .noteUnlink e note record => Sys2Proof.Machine.execNoteUnlink e note record s
  | .noteDelete e note => Sys2Proof.Machine.execNoteDelete e note s
  | .noteRead e note => Sys2Proof.Machine.execNoteRead e note s
  | .noteList e site filter start => Sys2Proof.Machine.execNoteList e site filter start s
  | .recordList e site kind start => Sys2Proof.Machine.execRecordList e site kind start s
  | .recordRead e record offset => Sys2Proof.Machine.execRecordRead e record offset s
  | .recordErase e record => Sys2Proof.Machine.execRecordErase e record s
  | .storeWipe e => Sys2Proof.Machine.execStoreWipe e s
  | .storeConfig e low qp qs => Sys2Proof.Machine.execStoreConfig e low qp qs s
  | .park e retention => Sys2Proof.Machine.execPark e retention s
  | .resume e => Sys2Proof.Machine.execResume e s
  | .printSubmit e template site => Sys2Proof.Machine.execPrintSubmit e template site s
  | .printCancel e job => Sys2Proof.Machine.execPrintCancel e job s
  | .printList e => Sys2Proof.Machine.execPrintList e s
  | .paperFeed e n => Sys2Proof.Machine.execPaperFeed e n s
  | .noticeAck e => Sys2Proof.Machine.execNoticeAck e s
  | .noticePoll e => Sys2Proof.Machine.execNoticePoll e s
  | .noticeEnd e source => Sys2Proof.Machine.execNoticeEnd e source s
  | .noticeMask e mask => Sys2Proof.Machine.execNoticeMask e mask s
  | .noticeMode e mode => Sys2Proof.Machine.execNoticeMode e mode s
  | .noticePolling e on => Sys2Proof.Machine.execNoticePolling e on s

end Sys2Proof.Machine
end

