-- ==== Sys2Proof/WellFormed.lean ====
section
/-! DEFINITION. Which rows stand for something the lines can bring in. A row that is not well-formed is no row of the table:
its frame could not have passed, or could not have failed, the intake tests, or its frame carries no such command. -/

namespace Sys2Proof

open Sys2Proof.Machine

/-! ### Command codes (R204) -/

/-- The command code of a row that is a command of the crew computer (R204), and none for an event. An unknown and a
forwarded command carry their own codes. -/
def commandCode : Instr → Option Byte
  | .powerOn => none
  | .instantAdvance => none
  | .surveyClockTick => none
  | .debounceTimerExpiry _ => none
  | .quietTimerExpiry _ => none
  | .sample _ => none
  | .controlFrameReceive _ => none
  | .uFrameReject _ => none
  | .attach => none
  | .statusFrame => none
  | .podNotice => none
  | .podReply => none
  | .laneInstant _ => none
  | .capturePreRead _ => none
  | .heldGapRunPlace _ => none
  | .episodeWriteStart => none
  | .harmonicWriteStart => none
  | .storeBurstEnd _ => none
  | .readoutFramePlace => none
  | .composerRow _ => none
  | .printPeriodEnd _ => none
  | .strobeStart _ => none
  | .strobeEnd => none
  | .motorStep => none
  | .headOk => none
  | .paperPresent => none
  | .offerRetry => none
  | .replyPlace => none
  | .deferredReplyPlace => none
  | .dFrameEnd => none
  | .uFrameEnd => none
  | .command _ => none
  | .dFrameReject _ => none
  | .unknownCommand _ code => some code
  | .forwardedCommand _ _ code _ => some code
  | .tableLoadSurvey _ _ => some 1
  | .tableLoadReference _ _ => some 1
  | .tableLoadThreshold _ _ => some 1
  | .tableLoadCapture _ _ => some 1
  | .tableLoadBin _ _ => some 1
  | .tableLoadHarmonic _ _ => some 1
  | .tableLoadTemplate _ _ => some 1
  | .tableLoadPrintTiming _ _ => some 1
  | .tableRead _ _ _ _ => some 2
  | .status _ _ => some 3
  | .clockSet _ _ => some 4
  | .softReset _ => some 5
  | .hold _ => some 6
  | .release _ => some 7
  | .podDetach _ _ => some 8
  | .slotPassthrough _ _ _ => some 9
  | .captureForce _ _ _ => some 10
  | .siteOpen _ _ _ => some 11
  | .siteClose _ => some 12
  | .siteForget _ _ => some 13
  | .siteList _ => some 14
  | .noteAdd _ _ _ _ _ => some 15
  | .noteLink _ _ _ => some 16
  | .noteUnlink _ _ _ => some 17
  | .noteDelete _ _ => some 18
  | .noteRead _ _ => some 19
  | .noteList _ _ _ _ => some 20
  | .recordList _ _ _ _ => some 21
  | .recordRead _ _ _ => some 22
  | .recordErase _ _ => some 23
  | .storeWipe _ => some 24
  | .storeConfig _ _ _ _ => some 25
  | .park _ _ => some 26
  | .resume _ => some 27
  | .printSubmit _ _ _ => some 28
  | .printCancel _ _ => some 29
  | .printList _ => some 30
  | .paperFeed _ _ => some 31
  | .noticeAck _ => some 32
  | .noticePoll _ => some 33
  | .noticeEnd _ _ => some 34
  | .noticeMask _ _ => some 35
  | .noticeMode _ _ => some 36
  | .noticePolling _ _ => some 37

/-! ### The checks -/

/-- A SAMPLE frame carries 1 to 16 sets (R204). -/
def SampleFrame.wf (f : SampleFrame) : Bool := decide (1 ≤ f.sets.length ∧ f.sets.length ≤ 16)

/-- A control frame's body is within its kind's whole length (R204). -/
def ControlFrame.wf : ControlFrame → Bool
  | .attach _ _ => true
  | .status _ body => decide (body.length ≤ 16)
  | .podReply _ _ body => decide (body.length ≤ 64)
  | .podNotice _ _ _ => true

/-- A text parameter's length is one byte (R204). -/
def textWf (t : Text) : Bool := decide (t.length ≤ 255)

/-- A forwarded command names a target other than PART, and its COMMAND frame is at most 1,536 bytes long (R195, R204). -/
def forwardedWf (target : Byte) (body : List Byte) : Bool := target != 0xFF#8 && decide (body.length ≤ 1529)

/-- Whether a row stands for something the lines can bring in. Log 36. -/
def Instr.wf : Instr → Bool
  | .sample f => f.wf
  | .controlFrameReceive f => f.wf
  | .uFrameReject f => (judgeUp f).isSome
  | .dFrameReject f => (judgeDown f).isSome
  | .command c => isCommand c && c.wf
  | .unknownCommand _ code => !knownCode code
  | .forwardedCommand _ target _ body => forwardedWf target body
  | .siteOpen _ _ name => textWf name
  | .noteAdd _ _ _ text _ => textWf text
  | _ => true

end Sys2Proof
end

