-- ==== Sys2Proof/Safety.lean ====
section
/-! DEFINITION. The terms that statements about the part use: which parts of it a row leaves alone, when the command unit
takes a command, and what every reachable part keeps. -/

namespace Sys2Proof.Machine

open Sys2Proof

/-! ### What a row leaves alone -/

/-- The parts of the state that a frame speaks of. Tables and settings stand apart from what the blocks do with them. -/
inductive Part where
  | pending
  | instant
  | survey
  | clock
  | slots
  | event
  | uplink
  | tracker
  | reference
  | detector
  | episodes
  | capture
  | harmonic
  | memory
  | directory
  | port
  | readout
  | settings
  | park
  | registry
  | notes
  | print
  | templates
  | timing
  | notices
  | masks
  | dport
  | hold
  | cmd
deriving DecidableEq, Repr

/-- The session unit without its slots and its event record. -/
def SessionUnit.uplink (u : SessionUnit) : SessionUnit := { u with slots := Quad.fill PodSlot.reset, event := none }

/-- The tracker without its table. -/
def Tracker.work (t : Tracker) : Tracker := { t with table := Quad.fill none }

/-- The print engine without its tables. -/
def PrintEngine.work (p : PrintEngine) : PrintEngine := { p with templates := Quad.fill [], timing := ⟨1, 1, 1, 1⟩ }

/-- The notice unit without its settings. -/
def NoticeUnit.work (n : NoticeUnit) : NoticeUnit := { n with masked := 0, mode := .fixed, polling := false }

/-- The D-port without its hold state. -/
def DPort.work (d : DPort) : DPort := { d with hold := false }

/-- A part is the same in two states. -/
def Part.Same (p : Part) (s t : State) : Prop :=
  match p with
  | .pending => t.pending = s.pending
  | .instant => t.instant = s.instant
  | .survey => t.survey = s.survey
  | .clock => t.clock = s.clock
  | .slots => t.session.slots = s.session.slots
  | .event => t.session.event = s.session.event
  | .uplink => t.session.uplink = s.session.uplink
  | .tracker => t.tracker.work = s.tracker.work
  | .reference => t.tracker.table = s.tracker.table
  | .detector => t.detector = s.detector
  | .episodes => t.episodes = s.episodes
  | .capture => t.capture = s.capture
  | .harmonic => t.harmonic = s.harmonic
  | .memory => t.store.mem = s.store.mem
  | .directory =>
    (t.store.free, t.store.dir, t.store.nextId, t.store.reclaimed) =
      (s.store.free, s.store.dir, s.store.nextId, s.store.reclaimed)
  | .port =>
    (t.store.holder, t.store.used, t.store.lastServed, t.store.burst, t.store.lastSlot) =
      (s.store.holder, s.store.used, s.store.lastServed, s.store.burst, s.store.lastSlot)
  | .readout => t.store.readout = s.store.readout
  | .settings => (t.store.lowMark, t.store.qp, t.store.qs) = (s.store.lowMark, s.store.qp, s.store.qs)
  | .park => (t.store.parkState, t.store.retention) = (s.store.parkState, s.store.retention)
  | .registry => t.sites.registry = s.sites.registry
  | .notes => (t.sites.notes, t.sites.nextNote) = (s.sites.notes, s.sites.nextNote)
  | .print => t.print.work = s.print.work
  | .templates => t.print.templates = s.print.templates
  | .timing => t.print.timing = s.print.timing
  | .notices => t.notices.work = s.notices.work
  | .masks =>
    (t.notices.masked, t.notices.mode, t.notices.polling) = (s.notices.masked, s.notices.mode, s.notices.polling)
  | .dport => t.dport.work = s.dport.work
  | .hold => t.dport.hold = s.dport.hold
  | .cmd => t.cmd = s.cmd

/-- Every part outside a list is the same in two states. -/
def Keeps (ps : List Part) (s t : State) : Prop := ∀ p, p ∉ ps → p.Same s t

/-! ### When a command is taken, and how it is answered (R196, R197) -/

/-- The command unit can take a command: nothing runs, no reply waits, and the command is the frame that has left the queue
to be run, or arrives with nothing queued (log 2). -/
def Ready (c : Instr) (s : State) : Prop :=
  s.cmd.running = none ∧ s.cmd.waiting = none ∧
    (s.cmd.next = none ∧ s.cmd.queue = [] ∨ s.cmd.next.map asSent = some (asSent c))

/-- The part once the command is taken: no frame is left that is to be run. -/
def taken (s : State) : State := s.setCmd { s.cmd with next := none }

/-- A command is carried out: the part is as given once its OK reply with a body is answered. -/
def CarriedOut (c : Instr) (tag : BitVec 16) (code : Byte) (body : ReplyBody) (s t : State) : Prop :=
  exec c s = .next (answer ⟨tag, code, .ok, false, body⟩ t)

/-- A command is refused: it changes nothing but the queue it leaves, and its reply has an empty body (R195). -/
def TurnedAway (c : Instr) (tag : BitVec 16) (code : Byte) (o : OutcomeCode) (s : State) : Prop :=
  exec c s = .next (answer ⟨tag, code, o, false, .empty⟩ (taken s))

/-- The envelope of a command that carries parameters of its own (R195): all but the unknown and the forwarded. -/
def envelope : Instr → Option Envelope
  | .tableLoadSurvey h _ => some ⟨h.tag, h.lengthOk⟩
  | .tableLoadReference h _ => some ⟨h.tag, h.lengthOk⟩
  | .tableLoadThreshold h _ => some ⟨h.tag, h.lengthOk⟩
  | .tableLoadCapture h _ => some ⟨h.tag, h.lengthOk⟩
  | .tableLoadBin h _ => some ⟨h.tag, h.lengthOk⟩
  | .tableLoadHarmonic h _ => some ⟨h.tag, h.lengthOk⟩
  | .tableLoadTemplate h _ => some ⟨h.tag, h.lengthOk⟩
  | .tableLoadPrintTiming h _ => some ⟨h.tag, h.lengthOk⟩
  | .tableRead e _ _ _ => some e
  | .status e _ => some e.toEnvelope
  | .clockSet e _ => some e
  | .softReset e => some e
  | .hold e => some e
  | .release e => some e
  | .podDetach e _ => some e
  | .slotPassthrough e _ _ => some e
  | .captureForce e _ _ => some e
  | .siteOpen e _ _ => some e
  | .siteClose e => some e
  | .siteForget e _ => some e
  | .siteList e => some e
  | .noteAdd e _ _ _ _ => some e
  | .noteLink e _ _ => some e
  | .noteUnlink e _ _ => some e
  | .noteDelete e _ => some e
  | .noteRead e _ => some e
  | .noteList e _ _ _ => some e
  | .recordList e _ _ _ => some e
  | .recordRead e _ _ => some e
  | .recordErase e _ => some e
  | .storeWipe e => some e
  | .storeConfig e _ _ _ => some e
  | .park e _ => some e
  | .resume e => some e
  | .printSubmit e _ _ => some e
  | .printCancel e _ => some e.toEnvelope
  | .printList e => some e.toEnvelope
  | .paperFeed e _ => some e.toEnvelope
  | .noticeAck e => some e
  | .noticePoll e => some e
  | .noticeEnd e _ => some e
  | .noticeMask e _ => some e
  | .noticeMode e _ => some e
  | .noticePolling e _ => some e
  | _ => none

/-- The head, the number of entries of its table and the number of entries carried, of a TABLE_LOAD (R198). -/
def loadShape : Instr → Option (LoadHead × Nat × Nat)
  | .tableLoadSurvey h x => some (h, 1, x.length)
  | .tableLoadReference h x => some (h, 4, x.length)
  | .tableLoadThreshold h x => some (h, 16, x.length)
  | .tableLoadCapture h x => some (h, 4, x.length)
  | .tableLoadBin h x => some (h, 24, x.length)
  | .tableLoadHarmonic h x => some (h, 17, x.length)
  | .tableLoadTemplate h x => some (h, 4, x.length)
  | .tableLoadPrintTiming h x => some (h, 1, x.length)
  | _ => none

/-- A TABLE_LOAD that the common tests of R198 let through, for a table of `size` entries and a frame that carries `given`:
the part takes it now, is not parked, and the run lies within the table and is carried whole. -/
structure RunTaken (c : Instr) (h : LoadHead) (size given : Nat) (s : State) : Prop where
  ready : Ready c s
  length : h.lengthOk = true
  known : h.tableKnown = true
  active : s.parked = false
  run : 1 ≤ h.count ∧ h.first + h.count ≤ size ∧ given = h.count

/-- A TABLE_LOAD is refused with BAD_TABLE naming an index: it changes nothing but the queue it leaves (R195, R198). -/
def RefusedAt (c : Instr) (h : LoadHead) (i : Nat) (s : State) : Prop :=
  exec c s = .next (answer ⟨h.tag, 1, .badTable, false, .failing i⟩ (taken s))

/-- The commands that a parked part refuses with PARKED before any test of their own. A TABLE_LOAD names a table first
(R198). -/
def refusedWhileParked : Instr → Bool
  | .tableLoadSurvey h _ => h.tableKnown
  | .tableLoadReference h _ => h.tableKnown
  | .tableLoadThreshold h _ => h.tableKnown
  | .tableLoadCapture h _ => h.tableKnown
  | .tableLoadBin h _ => h.tableKnown
  | .tableLoadHarmonic h _ => h.tableKnown
  | .tableLoadTemplate h _ => h.tableKnown
  | .tableLoadPrintTiming h _ => h.tableKnown
  | .softReset _ => true
  | .podDetach _ _ => true
  | .slotPassthrough _ _ _ => true
  | .captureForce _ _ _ => true
  | .siteOpen _ _ _ => true
  | .siteClose _ => true
  | .siteForget _ _ => true
  | .recordList _ _ _ _ => true
  | .recordRead _ _ _ => true
  | .recordErase _ _ => true
  | .storeWipe _ => true
  | .storeConfig _ _ _ _ => true
  | .park _ _ => true
  | .printSubmit _ _ _ => true
  | .printCancel _ _ => true
  | .printList _ => true
  | .paperFeed _ _ => true
  | _ => false

/-- The rows that can change a part that belongs to a few rows alone: the record memory, the tables and settings, the
park and hold states, the instant counter, the survey clock and the notes. Every other part counts as changed by any
row. -/
def mayChange (p : Part) (c : Instr) : Bool :=
  match p, c with
  | .pending, _ => false
  | _, .powerOn => true
  | .memory, .storeBurstEnd _ => true
  | .memory, .park _ _ => true
  | .memory, _ => false
  | .survey, .tableLoadSurvey _ _ => true
  | .survey, _ => false
  | .reference, .tableLoadReference _ _ => true
  | .reference, _ => false
  | .templates, .tableLoadTemplate _ _ => true
  | .templates, _ => false
  | .timing, .tableLoadPrintTiming _ _ => true
  | .timing, _ => false
  | .masks, .noticeMask _ _ => true
  | .masks, .noticeMode _ _ => true
  | .masks, .noticePolling _ _ => true
  | .masks, _ => false
  | .settings, .storeConfig _ _ _ _ => true
  | .settings, _ => false
  | .park, .park _ _ => true
  | .park, .resume _ => true
  | .park, _ => false
  | .hold, .hold _ => true
  | .hold, .release _ => true
  | .hold, .softReset _ => true
  | .hold, _ => false
  | .instant, .instantAdvance => true
  | .instant, _ => false
  | .clock, .surveyClockTick => true
  | .clock, .clockSet _ _ => true
  | .clock, _ => false
  | .notes, .noteAdd _ _ _ _ _ => true
  | .notes, .noteLink _ _ _ => true
  | .notes, .noteUnlink _ _ _ => true
  | .notes, .noteDelete _ _ => true
  | .notes, .park _ _ => true
  | .notes, _ => false
  | _, _ => true

/-! ### What common events do -/

/-- An edge source's request has been added, with nothing of the in-service list changed (R169). -/
def Raised (k : Fin 12) (s t : State) : Prop :=
  t.notices.requests = addSource s.notices.requests k ∧ t.notices.service = s.notices.service

/-- A frame has been sent upstream (R11, R192): behind every frame placed before it, or in flight at once; or, with the
upstream queue full, dropped and counted. -/
def SentUp (f : UpFrame) (s t : State) : Prop :=
  if s.session.up.length < 8 then
    t.session.upInFlight.toList ++ t.session.up = s.session.upInFlight.toList ++ s.session.up ++ [f] ∧
      t.session.upInFlight.isSome ∧ t.session.upDrops = s.session.upDrops
  else
    t.session.up = s.session.up ∧ t.session.upInFlight = s.session.upInFlight ∧
      t.session.upDrops = bump s.session.upDrops

/-- A slot as a session end leaves it: ENDING, or EMPTY at once when its capture slot is IDLE (R7, R8). -/
def PodSlot.ended (r : EndReason) (idle : Bool) (p : PodSlot) : PodSlot :=
  let gone : PodSlot := { p with quietTimer := none, ingress := [], lastSeq := none, lane := none, pendingSet := 0 }
  if idle then
    { gone with phase := .empty, serial := 0, kinds := Quad.fill .none, debounceCount := 0, endReason := none }
  else { gone with phase := .ending, endReason := some r }

/-- A channel as a session end leaves it: no open event, no held RMS code, and a staged entry in force (R48). -/
def ChannelEnded (before after : ChannelState) : Prop :=
  after.event = none ∧ after.held = none ∧ after.staged = none ∧ after.inForce = before.staged.getD before.inForce

/-- Every open event stands on its own channel (R37, R46). -/
def EventsOk (s : State) : Prop := ∀ c e, (s.chan c).event = some e → e.chan = c

/-- A close counted in a channel's event, of a kind from now on (R46): the half-cycle count up to 6000, the end instant, the marks
of the close, and with an RMS code its extreme; `unwatched` says that the event closes with it for want of a watch (R47). -/
structure CloseCounted (k : LaneClose) (nc : Nat) (code : Option Nat) (unwatched : Bool) (kind : EventKind)
    (e x : EventEntry) : Prop where
  same : (x.chan, x.kind, x.start) = (e.chan, kind, e.start)
  halfCycles : x.halfCycles = if e.halfCycles < 6000 then e.halfCycles + 1 else e.halfCycles
  stop : x.stop = k.instant
  flags : x.flags = { e.flags with
    gapped := e.flags.gapped || k.gap, clipped := e.flags.clipped || k.clip, unwatched := e.flags.unwatched || unwatched }
  replaced : ∀ r, code = some r → (kind = .swell ∧ e.extreme < r ∨ kind ≠ .swell ∧ r < e.extreme) →
    x.extreme = r ∧ (1 ≤ nc → x.permille = min 65535 (r * 1000 / nc))
  left : (∀ r, code = some r → ¬(kind = .swell ∧ e.extreme < r ∨ kind ≠ .swell ∧ r < e.extreme)) →
    (x.extreme, x.permille) = (e.extreme, e.permille)

/-- The session of a slot has ended with a reason (R7, R8, R33, R48, R74, R95, R96): the slot itself, the session event
record, its four channels with their events, the episode whose last events they are, its capture slot, the tracker that
loses its reference, the harmonic lane, windows and interval of the slot, and POD_CASCADE's request; every other slot is as
it was. The harmonic clauses are for an end at which the tracker makes no boundary. -/
structure SessionEnded (r : EndReason) (i : Slot) (s t : State) : Prop where
  slot : t.slot i = (s.slot i).ended r ((s.cap i).phase == .idle)
  others : ∀ j, j ≠ i → t.slot j = s.slot j
  event : t.session.event =
    if (s.cap i).phase = .idle then some ⟨some i, (s.slot i).serial, .ended (some r)⟩ else s.session.event
  channels : ∀ x, ChannelEnded (s.chan (channel i x)) (t.chan (channel i x))
  normal : ∀ x, (s.chan (channel i x)).event.isSome → (t.chan (channel i x)).state = .normal
  episode : ∀ e, s.episodes.current = some e → e.openChannels ≠ [] →
    (∀ c ∈ e.openChannels, c.slot = i ∧ ∃ v, (s.chan c).event = some v ∧ v.chan = c) →
      t.episodes.current = none ∧ hasSource t.notices.requests 1 = true ∧
        (EventsOk s → s.episodes.outbox.length < 4 → ∃ rec, t.episodes.outbox = s.episodes.outbox ++ [rec] ∧
          ∀ (k : Nat) (x v : EventEntry), e.events[k]? = some (x, true) → (s.chan x.chan).event = some v →
            (s.chan x.chan).listed = true → x.chan.slot = i →
              rec.events[k]? = some { v with flags := { v.flags with podLost := true } })
  capture : (t.cap i).phase = (if (s.cap i).phase = .idle then .idle else .closing) ∧ (t.cap i).pending = none ∧
    (t.cap i).ring = []
  podLost : (s.cap i).taking = true → (t.cap i).flags.podLost = true
  lost : s.tracker.follows i = true →
    t.tracker.mode = .free ∧ t.tracker.reference = s.tracker.candidates.find? (qualifies t) ∧
      t.tracker.handoverCount = (s.tracker.handoverCount + 1) % 2 ^ 32 ∧
      t.tracker.change.map (fun c => (c.reason, c.previous, c.next)) =
        some (.lost, s.tracker.reference, t.tracker.reference) ∧
      hasSource t.notices.requests 5 = true
  kept : s.tracker.follows i = false → s.tracker.reference.isSome → t.tracker = s.tracker
  lane : t.harmonic.lanes.get i = none
  interval : (s.tracker.follows i = false ∨ s.tracker.mode = .free) → ∀ v, s.harmonic.current = some v →
    v.watches i = true →
      t.harmonic.current = none ∧ t.harmonic.ending = none ∧ t.harmonic.schedule = [] ∧
        (s.harmonic.ending = none → v.windows = 0 → t.harmonic.outbox = s.harmonic.outbox) ∧
        (s.harmonic.ending = none → v.windows ≠ 0 → s.harmonic.outbox.length < 2 →
          ∃ rec, t.harmonic.outbox = s.harmonic.outbox ++ [rec] ∧ rec.flags.cut = true ∧
            (rec.site, rec.windows, rec.start, rec.stop) = (v.site, v.windows, v.start, v.stop))
  window : (s.tracker.follows i = false ∨ s.tracker.mode = .free) →
    (∀ v, s.harmonic.current = some v → v.watches i = false) →
      ∀ (w : Window) (v : Interval) (j : Slot), s.harmonic.schedule = [w] → w.interval = .ending →
        s.harmonic.ending = some v → w.done.get i = false → j ≠ i → w.done.get j = false →
          t.harmonic.schedule = [{ w with done := w.done.set i true }] ∧
            t.harmonic.ending = some (v.mapSlot i Aggregate.voided)
  cascade : hasSource t.notices.requests 7 = cascadeHolds t

/-- The burst of a slot's capture begins (R75, R114): with staging empty that of the record's header, and otherwise as many
whole entries from the head of staging as fit in 64 bytes, which leave it. -/
def CaptureBurstBegins (i : Slot) (s t : State) : Prop :=
  t.store.lastSlot = i ∧
    if (s.cap i).staging = [] then t.store.burst = some (.captureHeader i) ∧ t.cap i = s.cap i
    else ∃ taken rest, (s.cap i).staging = taken ++ rest ∧ itemsSize taken ≤ 64 ∧
      (∀ x more, rest = x :: more → 64 < itemsSize taken + itemSize x.item) ∧
      t.store.burst = some (.captureItems i taken) ∧ t.cap i = { s.cap i with staging := rest }

/-- A slot's capture can begin its next burst without a page request: its record stands, and its pages hold the burst
(R106). -/
def CaptureBurstHeld (i : Slot) (s : State) : Prop :=
  ∃ id e, (s.cap i).recordId = some id ∧ s.entry id = some e ∧
    ((s.cap i).staging = [] ∨ e.length + 64 ≤ e.chain.length * 1024)

/-- An entry has been reclaimed (R102, R105, R109, R111): it has left the directory, its pages stand at the tail of the free-page
list in chain order, its site counts one record less, reclaimed_entries is counted and STORE_LOW follows. -/
structure Reclaimed (e : DirEntry) (s t : State) : Prop where
  dir : t.store.dir = s.store.dir.filter (fun d => d.id ≠ e.id)
  free : t.store.free = s.store.free ++ e.chain
  next : t.store.nextId = s.store.nextId
  counted : t.store.reclaimed = bump s.store.reclaimed
  registry : t.sites.registry =
    s.sites.registry.map (fun x => if x.id = e.site then { x with records := x.records - 1 } else x)
  low : hasSource t.notices.requests 4 = storeLow t
  rest : Keeps [.directory, .registry, .notices, .dport] s t

/-! ### What the part keeps -/

/-- The record memory is in canonical form. -/
def MemOk (s : State) : Prop := memWf s.store.mem = true

/-- No queue holds more frames, records, jobs or entries than the manual gives it places (R9, R11, R23, R54, R98, R127,
R134, R148, R184, R196). -/
structure QueuesOk (s : State) : Prop where
  control : s.session.control.length ≤ 8
  up : s.session.up.length ≤ 8
  boundaries : s.tracker.list.length ≤ 16
  episodes : s.episodes.outbox.length ≤ 4
  harmonic : s.harmonic.outbox.length ≤ 2
  sites : s.sites.registry.length ≤ 16
  notes : s.sites.notes.length ≤ 64
  jobs : s.print.jobs.length ≤ 8
  finished : s.print.finished.length ≤ 8
  passthrough : s.dport.passthrough.length ≤ 8
  reply : s.dport.reply.length ≤ 8
  periodic : s.dport.periodic.length ≤ 2
  record : s.dport.record.length ≤ 32
  commands : s.cmd.queue.length ≤ 4

/-- Every diagnostic counter is a 16-bit number (00_scope.md, R201). -/
def CountersOk (s : State) : Prop := ∀ n ∈ counters s, n ≤ 65535

/-- The in-service list as the notice unit keeps it (R168, R171, R172): in FIXED from the most urgent source to the least,
each once; in ROTATING one source at most; and with polling on nothing is offered and nothing waits (R179). -/
structure NoticeOk (n : NoticeUnit) : Prop where
  fixed : n.mode = .fixed → n.service.Pairwise (fun a b => a.source.val < b.source.val)
  rotating : n.mode = .rotating → n.service.length ≤ 1
  polling : n.polling = true → n.offered = none ∧ n.waiting = false

/-- The site registry as the site unit keeps it (R127, R129, R135): each id once, every id 1..65535, at most one site OPEN,
and names of at most 24 printable characters. -/
structure RegistryOk (r : List SiteEntry) : Prop where
  once : (r.map (fun e => e.id)).Nodup
  range : ∀ e ∈ r, 1 ≤ e.id ∧ e.id ≤ 65535
  oneOpen : (r.filter (fun e => e.state == .opened)).length ≤ 1
  name : ∀ e ∈ r, e.name.length ≤ 24 ∧ ∀ b ∈ e.name, 0x20 ≤ b.toNat ∧ b.toNat ≤ 0x7E

/-- The record ids that admitted records have taken and no directory entry holds yet. -/
def takenIds (s : State) : List Nat :=
  (s.episodes.writer.bind (fun a => a.id)).toList ++ (s.harmonic.writer.bind (fun a => a.id)).toList

/-- The record store accounts for its ids and pages (R102 to R104, R106 to R108): ids ascend and stay below the next id, which
no id taken by an admitted record repeats; each of the 16,384 pages is on the free-page list or in the chain of exactly one
entry; claimed pages are on the list, each claimed once; every capture under way has a WRITING entry of its own; and the
burst that completes a record has its id. -/
structure StoreOk (s : State) : Prop where
  ascending : s.store.dir.Pairwise (fun a b => a.id < b.id)
  below : ∀ e ∈ s.store.dir, e.id < s.store.nextId
  taken : (takenIds s).Nodup ∧ ∀ id ∈ takenIds s, id < s.store.nextId ∧ ∀ e ∈ s.store.dir, e.id ≠ id
  pages : (s.store.free ++ s.store.dir.flatMap (fun e => e.chain)).Perm (List.range 16384)
  claims : (claimed s).Nodup ∧ ∀ p ∈ claimed s, p ∈ s.store.free
  captures : ∀ i, if (s.cap i).phase = .idle then (s.cap i).recordId = none
    else ∃ e ∈ s.store.dir, (s.cap i).recordId = some e.id ∧ e.state = .writing
  apart : ∀ i j, i ≠ j → (s.cap i).recordId = (s.cap j).recordId → (s.cap i).recordId = none
  episode : s.store.burst = some (.episodeBlock 0) → (s.episodes.writer.bind (fun a => a.id)).isSome
  harmonic : s.store.burst = some (.harmonicBlock 0) → (s.harmonic.writer.bind (fun a => a.id)).isSome

/-- The site registry's counts (R127): each entry counts the directory entries, the admitted records and the notes that
name its site, and every directory entry and note names a site of the registry. -/
structure SiteCountsOk (s : State) : Prop where
  records : ∀ x ∈ s.sites.registry, x.records = s.store.dir.countP (fun d => d.site == x.id)
  notes : ∀ x ∈ s.sites.registry, x.notes = s.sites.notes.countP (fun n => n.site == x.id)
  pending : ∀ x ∈ s.sites.registry, x.pending =
    (if s.episodes.writer.isSome ∧ s.episodes.outbox.head?.map (fun r => r.site) = some x.id then 1 else 0) +
      (if s.harmonic.writer.isSome ∧ s.harmonic.outbox.head?.map (fun r => r.site) = some x.id then 1 else 0)
  entries : ∀ d ∈ s.store.dir, ∃ x ∈ s.sites.registry, x.id = d.site
  filed : ∀ n ∈ s.sites.notes, ∃ x ∈ s.sites.registry, x.id = n.site
  writers : (s.episodes.writer.isSome → s.episodes.outbox ≠ []) ∧ (s.harmonic.writer.isSome → s.harmonic.outbox ≠ [])
  admitted : (∀ r ∈ s.episodes.outbox.take 1, s.episodes.writer.isSome → ∃ x ∈ s.sites.registry, x.id = r.site) ∧
    ∀ r ∈ s.harmonic.outbox.take 1, s.harmonic.writer.isSome → ∃ x ∈ s.sites.registry, x.id = r.site

/-- How many LIVE links of the notes name a record. -/
def liveLinks (notes : List Note) (id : Nat) : Nat :=
  (notes.flatMap (fun n => n.live)).countP (fun l => l.record == id)

/-- The notes and pins as the site unit and the record store keep them (R110, R134, R136): the notes ascend in id and none has
the next note id, each record once among a note's links, every LIVE link of a COMPLETE entry, and every entry's pin count the number of
LIVE links that name it. -/
structure PinsOk (s : State) : Prop where
  ids : s.sites.notes.Pairwise (fun a b => a.id < b.id)
  next : ∀ n ∈ s.sites.notes, n.id ≠ s.sites.nextNote
  room : s.sites.notes.length ≤ 64 ∧ 1 ≤ s.sites.nextNote ∧ s.sites.nextNote ≤ 65535
  links : ∀ n ∈ s.sites.notes, (n.links.map (fun l => l.record)).Nodup
  live : ∀ n ∈ s.sites.notes, ∀ l ∈ n.live, ∃ e ∈ s.store.dir, e.id = l.record ∧ e.state = .complete
  pins : ∀ e ∈ s.store.dir, e.pins = liveLinks s.sites.notes e.id

/-- Only the head job is other than QUEUED, and only it can have a cancel (R150, R163). -/
def JobsOk (jobs : List Job) : Prop := ∀ j ∈ jobs.tail, j.state = .queued ∧ j.cancel = .none

/-- A slot's fields as its phase leaves them (R1, R3, R7, R8): only an ACTIVE slot has a lane, queued frames, a running quiet
timer and sub-notices; only a slot in DEBOUNCE has a running debounce timer; an EMPTY slot holds no serial; and an end
reason stands in ENDING alone. -/
structure SlotOk (p : PodSlot) : Prop where
  quiet : p.phase ≠ .active → p.lane = none ∧ p.ingress = [] ∧ p.quietTimer = none ∧ p.pendingSet = 0
  running : p.phase = .active → p.lane.isSome ∧ p.quietTimer.isSome
  debounce : p.debounceTimer.isSome = decide (p.phase = .debounce)
  empty : p.phase = .empty → p.serial = 0 ∧ p.kinds = Quad.fill .none
  ending : p.endReason.isSome = decide (p.phase = .ending)

/-- Every slot is as its phase leaves it. -/
def SlotsOk (s : State) : Prop := ∀ i, SlotOk (s.slot i)

end Sys2Proof.Machine
end

