-- ==== Sys2Proof/Certificates/Slice0/Obligations.lean ====
section
/-! DEFINITION. What is stated about the part, for the provers. A statement about a next state says where the row completes and
what it leaves; `Keeps` lists the parts it may change, and every other part is the same. -/

section Statements

open Sys2Proof Sys2Proof.Machine

/-! ### The block's rows and the envelope of its commands -/

/-- STEP. With a row at the front of its queue the block runs that row with the queue's rest. That it idles on an empty
queue is the model's choice (log 3). -/
def Obligations.StepTakesTheFrontRow : Prop :=
  (∀ (c : Instr) (rest : List Instr) (s : State), step (s.setPending (c :: rest)) = exec c (s.setPending rest)) ∧
    ∀ s : State, step (s.setPending []) = .next (s.setPending [])

/-- TURN. Which commands are taken, and which are turned away before a test of their own. A command is run when nothing runs,
no reply waits and it is the frame that has left the queue to be run, or arrives with nothing queued (R197); a command row at
any other moment leaves the part unchanged: the model's choice (log 1, log 2). A wrong parameter length is BAD_PARAM in every
park state (test 4 of R195). A parked part refuses the commands of its list with PARKED (R5, R11, R13, R76, R122, R198). That
it does so for a slot above 3 of POD_DETACH and SLOT_PASSTHROUGH too (log 57), and that no refusal carries TRUNCATED (log 62),
are the model's choices. -/
def Obligations.CommandsAreTakenInTurn : Prop :=
  (∀ (c : Instr) (s : State), isCommand c = true → ¬Ready c s → exec c s = .next s) ∧
  (∀ (c : Instr) (e : Envelope) (code : Byte) (s : State),
    envelope c = some e → commandCode c = some code → Ready c s → e.lengthOk = false →
      TurnedAway c e.tag code .badParam s) ∧
  (∀ (c : Instr) (e : Envelope) (code : Byte) (s : State),
    refusedWhileParked c = true → envelope c = some e → commandCode c = some code → Ready c s → e.lengthOk = true →
      s.parked = true → TurnedAway c e.tag code .parked s) ∧
  ∀ (tag : BitVec 16) (target code : Byte) (body : List Byte) (s : State),
    target.toNat < 4 → Ready (.forwardedCommand tag target code body) s → s.parked = true →
      TurnedAway (.forwardedCommand tag target code body) tag code .parked s

/-- OWNERS. No row stops the part: whatever its operands and whatever the state, it answers a next state. The record memory,
the tables and settings, the park and hold states, the instant counter, the survey clock and the notes change in the rows
that own them alone; no row changes the queue of rows. -/
def Obligations.EveryRowChangesItsOwnPartsAlone : Prop :=
  ∀ (c : Instr) (s : State), ∃ t, exec c s = .next t ∧ ∀ p, mayChange p c = false → p.Same s t

/-! ### What every step keeps -/

/-- KEEP. Every step keeps the record memory in its canonical form (addresses rising, no listed byte 0), each queue within its
places, each diagnostic counter a 16-bit number, and each open event on its own channel. -/
def Obligations.EveryStepKeepsMemoryQueuesAndCounters : Prop :=
  ∀ (s t : State), step s = .next t →
    (MemOk s → MemOk t) ∧ (QueuesOk s → QueuesOk t) ∧ (CountersOk s → CountersOk t) ∧ (EventsOk s → EventsOk t)

/-- KEEP. Every step keeps the in-service list in its order: in FIXED each source once and the most urgent first, in
ROTATING one source at most, and with polling on nothing is offered and nothing waits. -/
def Obligations.EveryStepKeepsServiceOrdered : Prop :=
  ∀ (s t : State), NoticeOk s.notices → step s = .next t → NoticeOk t.notices

/-- KEEP. Every step keeps the site registry legal: ids once and 1..65535, one OPEN site at most, names of at most 24
printable characters. -/
def Obligations.EveryStepKeepsRegistryLegal : Prop :=
  ∀ (s t : State), RegistryOk s.sites.registry → step s = .next t → RegistryOk t.sites.registry

/-- KEEP. Every step keeps each slot as its phase leaves it: only an ACTIVE slot has a lane, queued frames, a running quiet
timer and sub-notices. -/
def Obligations.EveryStepKeepsSlotsLegal : Prop :=
  ∀ (s t : State), SlotsOk s → step s = .next t → SlotsOk t

/-- PAGES. Every step keeps the store's ids and pages accounted for: each of the 16,384 pages is on the free-page list or in
the chain of exactly one directory entry (R102), ids ascend (R104), and every capture under way has a WRITING entry of its
own. -/
def Obligations.EveryStepKeepsPagesAccountedFor : Prop :=
  ∀ (s t : State), StoreOk s → step s = .next t → StoreOk t

/-- PINS. Every step keeps the notes ascending in id, and every entry's pin count equal to the number of LIVE note links that
name it (R110, R134). -/
def Obligations.EveryStepKeepsPinsEqualToLiveLinks : Prop :=
  ∀ (s t : State), StoreOk s → PinsOk s → step s = .next t → PinsOk t

/-- LEVEL. The requests of POD_CASCADE, STORE_LOW and PRINT_STALL follow their conditions (R10, R111, R162, R170): where they
agree, the slots are legal and the store accounts for its pages, they agree after every step. For PRINT_STALL only the head job
is other than QUEUED (R150), which every step keeps too. -/
def Obligations.EveryStepKeepsLevelSourcesFollowed : Prop :=
  (∀ (s t : State), SlotsOk s → StoreOk s → step s = .next t →
    (hasSource s.notices.requests 7 = cascadeHolds s → hasSource t.notices.requests 7 = cascadeHolds t) ∧
    (hasSource s.notices.requests 4 = storeLow s → hasSource t.notices.requests 4 = storeLow t)) ∧
  ∀ (s t : State), JobsOk s.print.jobs → step s = .next t → JobsOk t.print.jobs ∧
    (hasSource s.notices.requests 8 = stallHolds s → hasSource t.notices.requests 8 = stallHolds t)

/-- COUNTS. Every step keeps the registry's counts of records, notes and admitted records true of the directory, the notes and
the writers (R127). -/
def Obligations.EveryStepKeepsSiteCountsTrue : Prop :=
  ∀ (s t : State), RegistryOk s.sites.registry → StoreOk s → PinsOk s → SiteCountsOk s → step s = .next t →
    SiteCountsOk t

/-- RESET. The part right after power-on meets every invariant that a step keeps. -/
def Obligations.ResetMeetsEveryInvariant : Prop :=
  MemOk State.reset ∧ QueuesOk State.reset ∧ CountersOk State.reset ∧ EventsOk State.reset ∧ NoticeOk State.reset.notices ∧
    RegistryOk State.reset.sites.registry ∧ SlotsOk State.reset ∧ StoreOk State.reset ∧ PinsOk State.reset ∧
    SiteCountsOk State.reset ∧
    hasSource State.reset.notices.requests 7 = cascadeHolds State.reset ∧
    hasSource State.reset.notices.requests 4 = storeLow State.reset ∧
    JobsOk State.reset.print.jobs ∧ hasSource State.reset.notices.requests 8 = stallHolds State.reset

/-- FRAMES. Every well-formed SAMPLE and control frame, laid out as R204 lays it out, passes the U-port's intake tests and
is read back as the same frame, every field of it; so does every COMMAND frame of up to 1,536 bytes at the D-port, and a text
parameter. A frame sent either way ends with its check field (R181). A GRANT, a DETACH, a POD_COMMAND, a POD_ACK and a POD_END
have their fields at their places. A REPLY opens with its tag, code, outcome number and TRUNCATED flag, a NOTICE is its source
and the request set, a RECORD frame has its fields at their places, and a SAMPLE or POD_REPLY frame goes downstream as it came;
what follows a REPLY's six bytes has no layout (log 11). -/
def Obligations.UpstreamFramesReadBack : Prop :=
  (∀ f : SampleFrame, f.wf = true →
    judgeUp ⟨true, sampleBytes f⟩ = none ∧ parseUpstream (sampleBytes f) = some (.sample f)) ∧
  (∀ f : ControlFrame, f.wf = true →
    judgeUp ⟨true, controlBytes f⟩ = none ∧ parseUpstream (controlBytes f) = some (.control f)) ∧
  (∀ f : CommandFrame, f.parameters.length ≤ 1529 →
    judgeDown ⟨true, commandBytes f⟩ = none ∧ parseCommand (commandBytes f) = some f) ∧
  (∀ (t : Text) (rest : List Byte), t.length ≤ 255 → parseText (textBytes t ++ rest) = some (t, rest)) ∧
  (∀ (body : List Byte) (f : DownFrame), crcOk (downBytes body f) = true) ∧
  (∀ f : UpFrame, crcOk (upBytes f) = true) ∧
  (∀ (serial : BitVec 48) (result : GrantResult) (slot : Option Slot) (instant fNom : Nat),
    instant < 2 ^ 48 → fNom < 256 →
      let b := upBytes (.grant serial result slot instant fNom)
      b.length = 18 ∧ b[0]? = some 0x11#8 ∧ ofLe ((b.drop 1).take 6) = serial.toNat ∧
      (∀ k, ([.ok, .noSlot, .busy] : List GrantResult)[k]? = some result → (b[7]?).map (fun x => x.toNat) = some k) ∧
      (slot = none → b[8]? = some 0xFF#8) ∧
      (∀ i, slot = some i → (b[8]?).map (fun x => x.toNat) = some i.val) ∧
      ofLe ((b.drop 9).take 6) = instant ∧ (b[15]?).map (fun x => x.toNat) = some fNom) ∧
  (∀ (slot : Slot) (serial : BitVec 48),
    let b := upBytes (.detach slot serial)
    b.length = 10 ∧ b[0]? = some 0x12#8 ∧ (b[1]?).map (fun x => x.toNat) = some slot.val ∧
      ofLe ((b.drop 2).take 6) = serial.toNat) ∧
  (∀ (slot : Slot) (tag : BitVec 16) (body : List Byte),
    let b := upBytes (.podCommand slot tag body)
    b.length = 6 + body.length ∧ b[0]? = some 0x13#8 ∧ (b[1]?).map (fun x => x.toNat) = some slot.val ∧
      ofLe ((b.drop 2).take 2) = tag.toNat ∧ (b.drop 4).take body.length = body) ∧
  (∀ (slot : Slot) (code : Nat) (ended : Bool), code < 256 →
    let b := upBytes (if ended then .podEnd slot code else .podAck slot code)
    b.length = 5 ∧ b[0]? = some (if ended then 0x15#8 else 0x14#8) ∧
      (b[1]?).map (fun x => x.toNat) = some slot.val ∧ (b[2]?).map (fun x => x.toNat) = some code) ∧
  (∀ (body : List Byte) (f : SampleFrame), downBytes body (.sample f) = sampleBytes f) ∧
  (∀ (body b : List Byte) (slot : Byte) (tag : BitVec 16),
    downBytes body (.podReply slot tag b) = controlBytes (.podReply slot tag b)) ∧
  (∀ (body : List Byte) (r : Reply),
    (downBytes body (.reply r)).length = 8 + body.length ∧ ((downBytes body (.reply r)).drop 6).take body.length = body ∧
      (downBytes body (.reply r))[0]? = some 0x31#8 ∧
      ofLe (((downBytes body (.reply r)).drop 1).take 2) = r.tag.toNat ∧ (downBytes body (.reply r))[3]? = some r.code ∧
      (∀ k, ([.ok, .busy, .badParam, .badTable, .noSite, .siteOpen, .notFound, .full, .pinned, .parked, .noPod,
          .unknown] : List OutcomeCode)[k]? = some r.outcome →
        ((downBytes body (.reply r))[4]?).map (fun b => b.toNat) = some k) ∧
      (downBytes body (.reply r))[5]? = some (if r.truncated then 1 else 0)) ∧
  (∀ (body : List Byte) (k : Fin 12) (m : BitVec 12),
    (downBytes body (.notice k m)).length = 6 ∧ (downBytes body (.notice k m))[0]? = some 0x32#8 ∧
      ((downBytes body (.notice k m))[1]?).map (fun b => b.toNat) = some k.val ∧
      ofLe (((downBytes body (.notice k m)).drop 2).take 2) = m.toNat) ∧
  ∀ (body : List Byte) (f : RecordFrame), f.id < 2 ^ 32 → f.offset < 2 ^ 32 → f.data.length ≤ 512 →
    (downBytes body (.record f)).length = 14 + f.data.length ∧ (downBytes body (.record f))[0]? = some 0x33#8 ∧
      ofLe (((downBytes body (.record f)).drop 1).take 4) = f.id ∧
      ofLe (((downBytes body (.record f)).drop 5).take 4) = f.offset ∧
      (downBytes body (.record f))[9]? = some (if f.last then 1 else 0) ∧
      ofLe (((downBytes body (.record f)).drop 10).take 2) = f.data.length ∧
      ((downBytes body (.record f)).drop 12).take f.data.length = f.data

/-- POWER_ON. Every block of the store takes the values R126 lists, and every other block those of the power-on rule of its
chapter (R203); the rows that wait are the block's, not the part's. What the model chooses besides: what a byte of the record
memory then reads (log 8) and the levels of the paper and head lines until a row brings one (log 9). -/
def Obligations.PowerOnStartsThePart : Prop :=
  ∀ s : State, ∃ t, exec .powerOn s = .next t ∧ t.pending = s.pending ∧
    (∀ a, readByte t.store.mem a = 0) ∧ t.store.free = List.range 16384 ∧ t.store.dir = [] ∧ t.store.nextId = 1 ∧
    (t.store.lowMark, t.store.qp, t.store.qs) = (256, 8, 4) ∧
    (t.store.holder, t.store.used, t.store.lastServed) = (.none, 0, .readout) ∧
    (t.store.burst, t.store.lastSlot) = (none, 3) ∧ t.store.readout = ⟨.none, false, 0, 0, 0, [], []⟩ ∧
    (t.store.parkState, t.store.retention, t.store.reclaimed) = (.active, none, 0) ∧
    t.instant = 0 ∧ t.survey = ⟨50, 64, true⟩ ∧ (t.clock.seconds, t.clock.isSet) = (0, false) ∧
    (∀ i, (t.slot i).phase = .empty ∧ (t.slot i).serial = 0 ∧ (t.slot i).passthrough = false ∧
      (t.slot i).pendingSet = 0 ∧ (t.slot i).ingress = [] ∧ (t.slot i).lane = none ∧ t.slot i = PodSlot.reset) ∧
    t.session.event = none ∧ (t.session.control, t.session.up, t.session.upInFlight) = ([], [], none) ∧
    (t.tracker.mode, t.tracker.reference, t.tracker.decision, t.tracker.position, t.tracker.side) =
      (.free, none, none, 0, .unknown) ∧
    (t.tracker.lastDirection, t.tracker.newest, t.tracker.nextNumber, t.tracker.list, t.tracker.lPrev) =
      (.falling, none, 1, [], 128) ∧
    (t.tracker.forcedRun, t.tracker.crossingCloses, t.tracker.handoverCount, t.tracker.change) = (0, 0, 0, none) ∧
    (∀ k, t.tracker.table.get k = none) ∧
    (∀ c, (t.chan c).inForce = ⟨false, 0, 900, 100, 1100, 20⟩ ∧ (t.chan c).staged = none ∧
      (t.chan c).state = .normal ∧ (t.chan c).held = none ∧ (t.chan c).event = none) ∧
    t.episodes = ⟨none, [], none, 0, 0⟩ ∧
    (∀ i, (t.cap i).entry = ⟨true, 2, 4⟩ ∧ (t.cap i).phase = .idle ∧ ((t.cap i).ring, (t.cap i).ringWrite) = ([], 0) ∧
      (t.cap i).recordId = none ∧ (t.cap i).pending = none ∧
      ((t.cap i).staging, (t.cap i).held, (t.cap i).waiting, (t.cap i).behind) = ([], ⟨0, 0, 0, 0⟩, [], [])) ∧
    binList t.harmonic.bins = [1, 2, 3, 5, 7] ∧ t.harmonic.params = ⟨List.replicate 16 false, 75, true⟩ ∧
    (t.harmonic.staged, t.harmonic.schedule, t.harmonic.current, t.harmonic.ending, t.harmonic.outbox,
      t.harmonic.writer) = (none, [], none, none, [], none) ∧
    (∀ i, t.harmonic.lanes.get i = none) ∧ t.sites = ⟨[], [], 1⟩ ∧
    t.print.gen.mode = .held ∧ t.print.gen.period = none ∧ t.print.timing = ⟨1, 1, 1, 1⟩ ∧ t.print.jobs = [] ∧
    t.print.finished = [] ∧ t.print.nextJob = 1 ∧ (∀ k, t.print.templates.get k = []) ∧
    t.print.composer.state = .idle ∧ t.print.composer.snapshot = [] ∧
    (t.print.halfA, t.print.halfB, t.print.strobe, t.print.deferred) = (.free, .free, false, []) ∧
    (t.print.paper, t.print.head) = (.present, .ok) ∧
    t.notices = ⟨0, BitVec.allOnes 12, [], .fixed, 0, false, none, false⟩ ∧
    (t.dport.passthrough, t.dport.reply, t.dport.periodic, t.dport.sendBuffer, t.dport.record) =
      ([], [], [], none, []) ∧
    (t.dport.inFlight, t.dport.hold, t.dport.pendingHold) = (none, false, none) ∧
    t.cmd = ⟨[], none, none, none, 0⟩ ∧ (∀ n ∈ counters t, n = 0)

/-! ### Pod sessions and sample lanes -/

/-- QUIET. When the quiet timer of an ACTIVE slot reaches its end, the session ends with reason QUIET (R6, R7): the slot is
ENDING, or EMPTY at once when its capture slot is IDLE (R8), and every block that uses the slot takes the end: the events
close with POD_LOST and the episode they end with them (R48), a reference of the slot is handed over with LOST (R33), the
capture closes with POD_LOST (R74), and windows pending for the slot are void, the interval that watches it cut (R95, R96).
Which of these reaches the notice unit first is the model's choice (log 51), and so is that the row of a timer that does not run,
its slot not ACTIVE, changes nothing (log 1). -/
def Obligations.QuietExpiryEndsTheSession : Prop :=
  (∀ (i : Slot) (s : State), s.isActive i = true →
    ∃ t, exec (.quietTimerExpiry i) s = .next t ∧ SessionEnded .quiet i s t ∧
      Keeps [.slots, .event, .tracker, .detector, .episodes, .capture, .harmonic, .directory, .port, .registry, .notices,
        .dport] s t) ∧
  ∀ (i : Slot) (s : State), s.isActive i = false → exec (.quietTimerExpiry i) s = .next s

/-- SAMPLE. A SAMPLE frame of 1..16 sets is judged in the order of R12 after the quiet timer of an ACTIVE slot has
restarted (R6): stray, stray by its instants or its sequence, dropped for room, or accepted with its extended instant: of the
numbers from 0 whose low 32 bits equal the frame's field, the one in c − 2³² + 1 .. c. -/
def Obligations.SampleFramesAreJudgedInOrder : Prop :=
  (∀ (f : SampleFrame) (s : State), 1 ≤ f.sets.length → f.sets.length ≤ 16 →
    ∃ t, exec (.sample f) s = .next t ∧ (∀ j, j ≠ f.slot → t.slot j = s.slot j) ∧
      ((s.slot f.slot).phase ≠ .active →
        t.slot f.slot = s.slot f.slot ∧ t.session.stray = bump s.session.stray ∧ Keeps [.uplink] s t) ∧
      ((s.slot f.slot).phase = .active →
        (((extendInstant s.instant f.first).all (fun v => decide (s.instant < v + f.sets.length)) = true ∨
            (s.slot f.slot).lastSeq = some f.seq) →
          t.slot f.slot = { s.slot f.slot with quietTimer := some 0 } ∧ t.session.stray = bump s.session.stray ∧
            Keeps [.slots, .uplink] s t) ∧
        ∀ v, extendInstant s.instant f.first = some v → v + f.sets.length ≤ s.instant →
          (s.slot f.slot).lastSeq ≠ some f.seq →
            (1024 - ingressUsed (s.slot f.slot).ingress < 136 →
              t.slot f.slot =
                  { s.slot f.slot with quietTimer := some 0, ingressDrops := bump (s.slot f.slot).ingressDrops } ∧
                Raised 10 s t ∧ Keeps [.slots, .notices, .dport] s t) ∧
            (136 ≤ 1024 - ingressUsed (s.slot f.slot).ingress →
              t.slot f.slot =
                  { s.slot f.slot with
                    quietTimer := some 0, lastSeq := some f.seq
                    ingress := (s.slot f.slot).ingress ++ [⟨f.sets.length, v, f.sets, false⟩] } ∧
                t.dport = (if (s.slot f.slot).passthrough then s.dport.offerPassthrough f else s.dport) ∧
                Keeps [.slots, .dport] s t))) ∧
  ∀ (c : Nat) (field : BitVec 32) (v : Nat),
    extendInstant c field = some v ↔ v ≤ c ∧ c < v + 4294967296 ∧ v % 4294967296 = field.toNat

/-- QUEUE. A control frame restarts the quiet timer of the ACTIVE slot it comes from (R6), and joins the control queue of 8,
or is dropped and counted when the queue is full (R9). A frame that fails an intake test of R181 is dropped under its port's
crc_errors or frame_errors counter, and changes nothing else. -/
def Obligations.FramesJoinTheQueueOrAreCounted : Prop :=
  (∀ (f : ControlFrame) (s : State),
    ∃ t, exec (.controlFrameReceive f) s = .next t ∧
      (∀ i, t.slot i = if frameSlot s f = some i then { s.slot i with quietTimer := some 0 } else s.slot i) ∧
      (s.session.control.length < 8 →
        t.session.control = s.session.control ++ [f] ∧ t.session.controlDrops = s.session.controlDrops) ∧
      (8 ≤ s.session.control.length →
        t.session.control = s.session.control ∧ t.session.controlDrops = bump s.session.controlDrops) ∧
      Keeps [.slots, .uplink] s t) ∧
  ∀ (f : LineFrame) (s : State),
    (judgeUp f = some .crc → exec (.uFrameReject f) s =
      .next (s.setDport { s.dport with crcErrorsU := bump s.dport.crcErrorsU })) ∧
    (judgeUp f = some .frame → exec (.uFrameReject f) s =
      .next (s.setDport { s.dport with frameErrorsU := bump s.dport.frameErrorsU })) ∧
    (judgeDown f = some .crc → exec (.dFrameReject f) s =
      .next (s.setDport { s.dport with crcErrorsD := bump s.dport.crcErrorsD })) ∧
    (judgeDown f = some .frame → exec (.dFrameReject f) s =
      .next (s.setDport { s.dport with frameErrorsD := bump s.dport.frameErrorsD }))

/-- ATTACH. An ATTACH whose serial matches an ACTIVE slot is answered with a repeat GRANT and restarts the quiet timer alone;
one that matches a slot in ENDING is answered BUSY and leaves the slot as it was (R4). -/
def Obligations.AttachOfAHeldSlotIsAnsweredAgain : Prop :=
  ∀ (serial : BitVec 48) (kinds : Quad Kind) (rest : List ControlFrame) (i : Slot) (s : State),
    s.session.control = .attach serial kinds :: rest → matching s serial = some i →
      ((s.slot i).phase = .active →
        ∃ t, exec .attach s = .next t ∧ t.slot i = { s.slot i with quietTimer := some 0 } ∧
          (∀ j, j ≠ i → t.slot j = s.slot j) ∧ t.session.control = rest ∧
          SentUp (.grant serial .ok (some i) s.instant s.survey.fNom) s t ∧ Keeps [.slots, .uplink] s t) ∧
      ((s.slot i).phase = .ending →
        ∃ t, exec .attach s = .next t ∧ (∀ j, t.slot j = s.slot j) ∧ t.session.control = rest ∧
          SentUp (.grant serial .busy (some i) s.instant s.survey.fNom) s t ∧ Keeps [.uplink] s t)

/-- SESSION. How a session begins and fails to begin (R2, R3): an unknown serial takes the lowest EMPTY slot into DEBOUNCE,
is refused NO_SLOT with none EMPTY, and BUSY while parked; in DEBOUNCE equal kinds count, other kinds start again, and the
third ATTACH makes the slot ACTIVE with a lane from the newest boundary; the expiry of the debounce returns the slot to
EMPTY. The last boundary number of a lane that starts with no boundary made is the model's choice (log 45). -/
def Obligations.AttachBeginsASessionByDebounce : Prop :=
  (∀ (serial : BitVec 48) (kinds : Quad Kind) (rest : List ControlFrame) (s : State),
    s.session.control = .attach serial kinds :: rest →
      (matching s serial = none → s.parked = true →
        ∃ t, exec .attach s = .next t ∧ SentUp (.grant serial .busy none s.instant s.survey.fNom) s t ∧
          t.session.control = rest ∧ Keeps [.uplink] s t) ∧
      (matching s serial = none → s.parked = false → lowestEmpty s = none →
        ∃ t, exec .attach s = .next t ∧ SentUp (.grant serial .noSlot none s.instant s.survey.fNom) s t ∧
          t.session.control = rest ∧ t.session.event = some ⟨none, serial, .noSlot⟩ ∧ Raised 6 s t ∧
          Keeps [.uplink, .event, .notices, .dport] s t) ∧
      (∀ i, matching s serial = none → s.parked = false → lowestEmpty s = some i →
        ∃ t, exec .attach s = .next t ∧
          t.slot i =
            { s.slot i with
              phase := .debounce, serial := serial, kinds := kinds, debounceCount := 1, debounceTimer := some 0
              lastSeq := none, pendingSet := 0, endReason := none } ∧
          (∀ j, j ≠ i → t.slot j = s.slot j) ∧ t.session.control = rest ∧ Keeps [.slots, .uplink] s t) ∧
      (∀ i, matching s serial = some i → (s.slot i).phase = .debounce →
        (kinds ≠ (s.slot i).kinds →
          ∃ t, exec .attach s = .next t ∧
            t.slot i = { s.slot i with kinds := kinds, debounceCount := 1, debounceTimer := some 0 } ∧
            (∀ j, j ≠ i → t.slot j = s.slot j) ∧ t.session.control = rest ∧ Keeps [.slots, .uplink] s t) ∧
        (kinds = (s.slot i).kinds → (s.slot i).debounceCount + 1 < 3 →
          ∃ t, exec .attach s = .next t ∧
            t.slot i = { s.slot i with debounceCount := (s.slot i).debounceCount + 1, debounceTimer := some 0 } ∧
            (∀ j, j ≠ i → t.slot j = s.slot j) ∧ t.session.control = rest ∧ Keeps [.slots, .uplink] s t) ∧
        (kinds = (s.slot i).kinds → (s.slot i).debounceCount + 1 = 3 →
          ∃ t, exec .attach s = .next t ∧
            t.slot i =
              { s.slot i with
                phase := .active, debounceCount := 3, debounceTimer := none, quietTimer := some 0
                lane := some (Lane.start s.tracker.newest) } ∧
            (∀ j, j ≠ i → t.slot j = s.slot j) ∧ t.session.control = rest ∧
            t.session.event = some ⟨some i, (s.slot i).serial, .attached⟩ ∧ hasSource t.notices.requests 6 = true ∧
            SentUp (.grant (s.slot i).serial .ok (some i) s.instant s.survey.fNom) s t ∧
            Keeps [.slots, .event, .uplink, .tracker, .harmonic, .registry, .notices, .dport] s t))) ∧
  ∀ (i : Slot) (s : State), (s.slot i).phase = .debounce →
    ∃ t, exec (.debounceTimerExpiry i) s = .next t ∧
      t.slot i =
        { s.slot i with
          phase := .empty, serial := 0, kinds := Quad.fill .none, debounceCount := 0, debounceTimer := none } ∧
      (∀ j, j ≠ i → t.slot j = s.slot j) ∧ t.session.event = some ⟨some i, (s.slot i).serial, .attachFailed⟩ ∧
      Raised 6 s t ∧ Keeps [.slots, .event, .notices, .dport] s t

/-- HEAD. What the session unit does with a STATUS, POD_NOTICE or POD_REPLY at the head of the control queue (R9 to R11): one
that names a slot not ACTIVE is stray; STATUS changes nothing more; POD_NOTICE adds its code to the pending set or removes
it, and POD_CASCADE's request follows; POD_REPLY goes unchanged to the reply queue, or is dropped and counted. -/
def Obligations.PodFramesAreTakenFromTheHead : Prop :=
  ∀ (rest : List ControlFrame) (s : State),
    (∀ slot body i, s.session.control = .status slot body :: rest → namedActive s slot = some i →
      exec .statusFrame s = .next (s.setSession { s.session with control := rest })) ∧
    (∀ slot body, s.session.control = .status slot body :: rest → namedActive s slot = none →
      exec .statusFrame s =
        .next (s.setSession { s.session with control := rest, stray := bump s.session.stray })) ∧
    (∀ slot code on i, s.session.control = .podNotice slot code on :: rest → namedActive s slot = some i →
      ∃ t, exec .podNotice s = .next t ∧
        (∀ k : Fin 8, (t.slot i).pendingSet.getLsbD k.val =
          if k = code then on else (s.slot i).pendingSet.getLsbD k.val) ∧
        (t.slot i).lane =
          (if code = 0 ∧ on = true ∧ (s.slot i).clipped = false
            then (s.slot i).lane.map (fun l => { l with clipMark := true }) else (s.slot i).lane) ∧
        { t.slot i with pendingSet := (s.slot i).pendingSet, lane := (s.slot i).lane } = s.slot i ∧
        (∀ j, j ≠ i → t.slot j = s.slot j) ∧ t.session.control = rest ∧
        hasSource t.notices.requests 7 = cascadeHolds t ∧ Keeps [.slots, .uplink, .notices, .dport] s t) ∧
    (∀ slot code on, s.session.control = .podNotice slot code on :: rest → namedActive s slot = none →
      exec .podNotice s =
        .next (s.setSession { s.session with control := rest, stray := bump s.session.stray })) ∧
    (∀ slot tag body i, s.session.control = .podReply slot tag body :: rest → namedActive s slot = some i →
      (s.dport.reply.length < 8 → exec .podReply s =
        .next ((s.setSession { s.session with control := rest }).setDport (s.dport.placeReply (.podReply slot tag body)))) ∧
      (8 ≤ s.dport.reply.length → exec .podReply s =
        .next (s.setSession { s.session with control := rest, podReplyDrops := bump s.session.podReplyDrops }))) ∧
    ∀ slot tag body, s.session.control = .podReply slot tag body :: rest → namedActive s slot = none →
      exec .podReply s = .next (s.setSession { s.session with control := rest, stray := bump s.session.stray })

/-- DETACH. POD_DETACH by the state of the slot it names, and SLOT_PASSTHROUGH in every slot state (R5, R13). -/
def Obligations.PodCommandsActByTheSlot : Prop :=
  (∀ (e : Envelope) (i : Slot) (s : State), Ready (.podDetach e i.val) s → e.lengthOk = true → s.parked = false →
    ((s.slot i).phase = .active →
      ∃ t, CarriedOut (.podDetach e i.val) e.tag 8 .empty s t ∧ SessionEnded .detached i s t ∧
        SentUp (.detach i (s.slot i).serial) s t ∧
        Keeps [.slots, .event, .uplink, .tracker, .detector, .episodes, .capture, .harmonic, .directory, .port, .registry,
          .notices, .dport] (taken s) t) ∧
    ((s.slot i).phase = .debounce →
      ∃ t, CarriedOut (.podDetach e i.val) e.tag 8 .empty s t ∧
        t.slot i =
          { s.slot i with
            phase := .empty, serial := 0, kinds := Quad.fill .none, debounceCount := 0, debounceTimer := none } ∧
        (∀ j, j ≠ i → t.slot j = s.slot j) ∧ t.session.event = some ⟨some i, (s.slot i).serial, .attachFailed⟩ ∧
        Raised 6 s t ∧ SentUp (.detach i (s.slot i).serial) s t ∧
        Keeps [.slots, .event, .uplink, .notices, .dport] (taken s) t) ∧
    ((s.slot i).phase = .ending → TurnedAway (.podDetach e i.val) e.tag 8 .busy s) ∧
    ((s.slot i).phase = .empty → TurnedAway (.podDetach e i.val) e.tag 8 .noPod s)) ∧
  (∀ (e : Envelope) (n : Nat) (on : Bool) (s : State), 4 ≤ n → e.lengthOk = true → s.parked = false →
    (Ready (.podDetach e n) s → TurnedAway (.podDetach e n) e.tag 8 .badParam s) ∧
    (Ready (.slotPassthrough e n on) s → TurnedAway (.slotPassthrough e n on) e.tag 9 .badParam s)) ∧
  ∀ (e : Envelope) (i : Slot) (on : Bool) (s : State), Ready (.slotPassthrough e i.val on) s → e.lengthOk = true →
    s.parked = false →
      ∃ t, CarriedOut (.slotPassthrough e i.val on) e.tag 9 .empty s t ∧
        t.slot i = { s.slot i with passthrough := on } ∧ (∀ j, j ≠ i → t.slot j = s.slot j) ∧ Keeps [.slots] (taken s) t

/-- LANE. A lane processes a published instant that ends no half-cycle and is no reference's (R15, R16): a data instant adds
the squared codes to the sums and counts them, a gap instant sets the gap mark, and either moves H_total and the position on
by one; it waits while its queue is empty or the instant is not published (R17). A frame not yet taken is taken first (R16):
one that begins below the position loses the sets passed, is stray once, and is gone when none is left. A lane whose next
boundary has left the tracker's list resyncs to the oldest boundary listed (R18): its last boundary, position, sums and marks
are as after that boundary, and lane_resyncs is counted. That the row which resyncs processes no instant after it, that a
frame which straddles the boundary's instant counts no stray, and that a frame at the head is taken, trimmed or discarded and
counted stray also where the position's instant is not yet published, are the model's choices (log 31, log 42, log 32). -/
def Obligations.LanesProcessAndResync : Prop :=
  (∀ (i : Slot) (l : Lane) (f : IngressFrame) (rest : List IngressFrame) (s : State),
    (s.slot i).lane = some l → (s.slot i).ingress = f :: rest → f.taken = true → CountersOk s →
    published s i l.position = true → lagging s l = none → s.tracker.follows i = false →
    (∀ b ∈ s.tracker.list, b.number = l.lastBoundary + 1 → b.instant ≠ l.position) →
      (∀ x more, f.next = l.position → f.sets = x :: more →
        ∃ t, exec (.laneInstant i) s = .next t ∧
          t.slot i =
            { s.slot i with
              ingress := if more = [] then rest else { f with next := l.position + 1, sets := more } :: rest
              lane := some
                { l with
                  position := l.position + 1, hTotal := l.hTotal + 1, clipMark := l.clipMark || (s.slot i).clipped
                  sumSquares := Quad.zip (fun n c => n + c.toInt.natAbs ^ 2) l.sumSquares x
                  dataCount := l.dataCount.map (· + 1) } } ∧
          (∀ j, j ≠ i → t.slot j = s.slot j) ∧
          Keeps [.slots, .capture, .harmonic, .directory, .port, .registry, .episodes, .notices, .dport] s t) ∧
      (l.position < f.next →
        ∃ t, exec (.laneInstant i) s = .next t ∧
          t.slot i =
            { s.slot i with
              lane := some
                { l with
                  position := l.position + 1, hTotal := l.hTotal + 1, clipMark := l.clipMark || (s.slot i).clipped
                  gapMark := true } } ∧
          (∀ j, j ≠ i → t.slot j = s.slot j) ∧
          Keeps [.slots, .capture, .harmonic, .directory, .port, .registry, .episodes, .notices, .dport] s t)) ∧
  (∀ (i : Slot) (l : Lane) (f : IngressFrame) (rest : List IngressFrame) (b : Boundary) (s : State),
    (s.slot i).lane = some l → (s.slot i).ingress = f :: rest → f.taken = true →
    published s i l.position = true → lagging s l = some b →
      ∃ t, exec (.laneInstant i) s = .next t ∧
        (t.slot i).lane = some
          { position := b.instant + 1, lastBoundary := b.number, halfStart := b.instant + 1, sumSquares := Quad.fill 0
            dataCount := Quad.fill 0, hTotal := 0, gapMark := false, clipMark := false } ∧
        (∀ j, j ≠ i → t.slot j = s.slot j) ∧ t.session.laneResyncs = bump s.session.laneResyncs ∧
        t.session.stray = min 65535 s.session.stray ∧ ∀ g ∈ (t.slot i).ingress, b.instant < g.next) ∧
  ∀ (i : Slot) (l : Lane) (s : State), (s.slot i).lane = some l → s.session.stray ≤ 65535 →
    ((s.slot i).ingress = [] → s.store.holder ≠ .none → exec (.laneInstant i) s = .next s) ∧
    ∀ (f : IngressFrame) (rest : List IngressFrame), (s.slot i).ingress = f :: rest →
      (f.taken = true → published s i l.position = false → s.store.holder ≠ .none →
        exec (.laneInstant i) s = .next s) ∧
      (f.taken = false → l.position ≤ f.next →
        exec (.laneInstant i) s =
          exec (.laneInstant i) (s.setSlot i { s.slot i with ingress := { f with taken := true } :: rest })) ∧
      (f.taken = false → f.next < l.position → f.next + f.sets.length ≤ l.position →
        exec (.laneInstant i) s = exec (.laneInstant i)
          ((s.setSlot i { s.slot i with ingress := rest }).setSession
            { (s.setSlot i { s.slot i with ingress := rest }).session with stray := bump s.session.stray })) ∧
      (f.taken = false → f.next < l.position → l.position < f.next + f.sets.length →
        exec (.laneInstant i) s = exec (.laneInstant i)
          (let g : IngressFrame :=
            { f with next := l.position, sets := f.sets.drop (l.position - f.next), taken := true }
          (s.setSlot i { s.slot i with ingress := g :: rest }).setSession
            { (s.setSlot i { s.slot i with ingress := g :: rest }).session with stray := bump s.session.stray }))

/-- CLOSE. A lane that processes a data instant which is that of the boundary after its last one closes the half-cycle there
(step 4 of R15): the lane starts the next with its sums and marks clear, and each channel of an ungapped half-cycle holds
isqrt(floor(S / H)) as its RMS code (R38), S and H with this instant in them. -/
def Obligations.LaneClosesItsHalfCycle : Prop :=
  ∀ (i : Slot) (l : Lane) (f : IngressFrame) (rest : List IngressFrame) (x : SampleSet) (more : List SampleSet)
    (b : Boundary) (s : State),
    (s.slot i).lane = some l → (s.slot i).ingress = f :: rest → f.taken = true → f.next = l.position →
    f.sets = x :: more → published s i l.position = true → lagging s l = none → s.tracker.follows i = false →
    s.tracker.list.find? (fun b => b.number == l.lastBoundary + 1 && b.instant == l.position) = some b →
      ∃ t, exec (.laneInstant i) s = .next t ∧
        (t.slot i).lane = some
          { position := b.instant + 1, lastBoundary := b.number, halfStart := b.instant + 1, sumSquares := Quad.fill 0
            dataCount := Quad.fill 0, hTotal := 0, gapMark := false, clipMark := false } ∧
        (∀ j, j ≠ i → t.slot j = s.slot j) ∧
        (∀ k : Fin 4, l.gapMark = false → ∃ r, (t.chan (channel i k)).held = some r ∧
          r * r ≤ (l.sumSquares.get k + (x.get k).toInt.natAbs ^ 2) / (l.dataCount.get k + 1) ∧
          (l.sumSquares.get k + (x.get k).toInt.natAbs ^ 2) / (l.dataCount.get k + 1) < (r + 1) * (r + 1)) ∧
        (∀ k : Fin 4, l.gapMark = true → (t.chan (channel i k)).held = (s.chan (channel i k)).held)


/-! ### The cycle tracker -/

/-- FREE. At each period of the sample clock the instant counter advances, and in FREE the tracker decides the passed instant
(R14, R22, R25), whether it holds a reference or none: the half-cycle stays open below position 64 and closes there or later
with the opposite direction of the last, 128 instants to the cycle. In SEEKING and LOCKED with the reference lane near, only the
counter moves. In every mode a reference whose lane has fallen more than 1024 instants behind is handed over with STALLED, every
passed instant being decided (R33). While parked nothing moves. -/
def Obligations.FreeTrackerDecidesPassedInstants : Prop :=
  ∀ s : State,
    let near := ∀ c, s.tracker.reference = some c → laneNear (s.setInstant ((s.instant + 1) % 2 ^ 48)) c.slot = true
    (s.parked = true → exec .instantAdvance s = .next s) ∧
    (s.parked = false → near → s.tracker.mode = .free → s.tracker.position + 1 < 64 →
      ∃ t, exec .instantAdvance s = .next t ∧ t.instant = (s.instant + 1) % 2 ^ 48 ∧
        t.tracker = { s.tracker with position := s.tracker.position + 1, decision := some s.instant } ∧
        Keeps [.instant, .tracker] s t) ∧
    (s.parked = false → near → s.tracker.mode = .free → 64 ≤ s.tracker.position + 1 →
      ∃ t b, exec .instantAdvance s = .next t ∧ t.instant = (s.instant + 1) % 2 ^ 48 ∧
        b.number = s.tracker.nextNumber ∧ b.instant = s.instant ∧ b.direction = s.tracker.lastDirection.opposite ∧
        b.locked = false ∧ b.handovers = s.tracker.handoverCount ∧
        b.cycle = (if b.direction = .rising then some (128, 65536) else none) ∧
        t.tracker =
          { s.tracker with
            list := (s.tracker.list ++ [b]).drop (if s.tracker.list.length < 16 then 0 else 1)
            newest := some (b.number, b.instant), nextNumber := s.tracker.nextNumber + 1
            lastDirection := b.direction, position := 0, decision := some s.instant
            lPrev := if b.direction = .rising then 128 else s.tracker.lPrev } ∧
        Keeps [.instant, .tracker, .harmonic, .registry] s t) ∧
    (s.parked = false → near → s.tracker.mode ≠ .free →
      exec .instantAdvance s = .next (s.setInstant ((s.instant + 1) % 2 ^ 48))) ∧
    ∀ c, s.parked = false → s.tracker.reference = some c →
      laneNear (s.setInstant ((s.instant + 1) % 2 ^ 48)) c.slot = false →
        ∃ t, exec .instantAdvance s = .next t ∧ t.instant = (s.instant + 1) % 2 ^ 48 ∧ t.tracker.mode = .free ∧
          t.instant ≤ t.tracker.undecided ∧ t.tracker.reference = s.tracker.candidates.find? (qualifies t) ∧
          t.tracker.handoverCount = (s.tracker.handoverCount + 1) % 2 ^ 32 ∧ t.tracker.side = .unknown ∧
          t.tracker.crossingCloses = 0 ∧ t.tracker.forcedRun = 0 ∧
          t.tracker.change = some
            ⟨.stalled, some c, t.tracker.reference, t.tracker.decision, t.tracker.handoverCount⟩ ∧
          Raised 5 s t ∧ Keeps [.instant, .tracker, .harmonic, .registry, .notices, .dport] s t

/-- BOUNDARY. A boundary that the tracker makes (R23): its entry, its place in the list of 16, and what the tracker holds after
it. A RISING entry carries L_prev and the phase step floor(128 × 65536 / L_prev); L_prev is 128 in FREE and where the two
boundaries before are not RISING and FALLING in turn (R29). -/
def Obligations.BoundariesCarryTheirCycle : Prop :=
  ∀ (n : Nat) (d : Direction) (after : TrackerMode) (length : Nat) (s : State),
    let r := makeBoundary n d after length s
    r.2.number = s.tracker.nextNumber ∧ r.2.instant = n ∧ r.2.direction = d ∧
    r.2.locked = decide (s.tracker.mode = .locked) ∧ r.2.handovers = s.tracker.handoverCount ∧
    (d = .falling → r.2.cycle = none) ∧
    (d = .rising → ∃ len, r.2.cycle = some (len, 8388608 / len) ∧ r.1.tracker.lPrev = len ∧
      (after = .free ∨ s.tracker.list.length < 2 → len = 128) ∧
      ∀ pre p m, after ≠ .free → s.tracker.list = pre ++ [p, m] →
        len = if p.direction = .rising ∧ m.direction = .falling then n - p.instant else 128) ∧
    r.1.tracker.list = (s.tracker.list ++ [r.2]).drop (if s.tracker.list.length < 16 then 0 else 1) ∧
    r.1.tracker.newest = some (s.tracker.nextNumber, n) ∧ r.1.tracker.nextNumber = s.tracker.nextNumber + 1 ∧
    r.1.tracker.lastDirection = d ∧ r.1.tracker.position = 0 ∧ r.1.tracker.decision = some n ∧
    r.1.tracker.mode = after ∧ r.1.tracker.reference = s.tracker.reference ∧
    Keeps [.tracker, .harmonic, .registry] s r.1

/-- CROSSING. How SEEKING and LOCKED decide the instant after the decision point (R26 to R28): a crossing at position 52 or
more closes the half-cycle in its direction, and the second of SEEKING locks; one at 51 or less is counted as chatter;
position 76 without one is a forced close, which ends SEEKING at once and LOCKED the fourth time in a row. A LANE_INSTANT of
the reference's lane runs the detector on its code (R24): HIGH at h or more, LOW at −h − 1 or less, a crossing where the side
turns over; in FREE a crossing at position 52 to 76 of the lane's half-cycle enters SEEKING (R28), in SEEKING and LOCKED the
instant after the decision point is decided so. Where the lane closes an ungapped half-cycle at that instant whose RMS code r has
r × 1000 below Nc × 100, Nc not 0 and a staged entry being in force by then, the reference is handed over with WEAK to the first
candidate that qualifies (R33); otherwise the close leaves the tracker as it is. -/
def Obligations.CrossingsDecideSeekingAndLocked : Prop :=
  (∀ (i : Slot) (l : Lane) (f : IngressFrame) (rest : List IngressFrame) (c : Chan) (x : Option SampleSet) (s : State),
    (s.slot i).lane = some l → (s.slot i).ingress = f :: rest → f.taken = true →
    (l.position < f.next ∧ x = none ∨ f.next = l.position ∧ f.sets ≠ [] ∧ x = f.sets.head?) →
    published s i l.position = true → lagging s l = none → s.tracker.reference = some c → c.slot = i →
      let side : Side := match x with
        | none => s.tracker.side
        | some y =>
          if (s.survey.h : Int) ≤ (y.get c.index).toInt then .high
          else if (y.get c.index).toInt ≤ -(s.survey.h : Int) - 1 then .low
          else s.tracker.side
      let crossing : Option Direction :=
        if s.tracker.side = .low ∧ side = .high then some .rising
        else if s.tracker.side = .high ∧ side = .low then some .falling
        else none
      let seen := s.setTracker { s.tracker with side := side }
      let d : State × Option Boundary :=
        if s.tracker.mode = .free then
          (if crossing ≠ none ∧ 52 ≤ l.hTotal + 1 ∧ l.hTotal + 1 ≤ 76
            then s.setTracker { s.tracker with side := side, mode := .seeking, crossingCloses := 0, forcedRun := 0 }
            else seen, none)
        else if l.position = s.tracker.undecided then decideByCrossing l.position crossing seen
        else (seen, none)
      let closes := ∃ b ∈ d.1.tracker.list ++ d.2.toList, b.number = l.lastBoundary + 1 ∧ b.instant = l.position
      let nc := ((s.chan c).staged.getD (s.chan c).inForce).nc
      let weak := l.gapMark = false ∧ nc ≠ 0 ∧ ∃ y, x = some y ∧
        rmsCode (l.sumSquares.get c.index + (y.get c.index).toInt.natAbs ^ 2) (l.dataCount.get c.index + 1) * 1000 < nc * 100
      ∃ t, exec (.laneInstant i) s = .next t ∧
        (¬(closes ∧ weak) → t.tracker = d.1.tracker) ∧
        (closes → weak →
          t.tracker.mode = .free ∧ t.tracker.reference = s.tracker.candidates.find? (qualifies t) ∧
            t.tracker.handoverCount = (s.tracker.handoverCount + 1) % 2 ^ 32 ∧ t.tracker.side = .unknown ∧
            t.tracker.crossingCloses = 0 ∧ t.tracker.forcedRun = 0 ∧
            t.tracker.change = some
              ⟨.weak, some c, t.tracker.reference, t.tracker.decision, t.tracker.handoverCount⟩ ∧
            hasSource t.notices.requests 5 = true)) ∧
  ∀ (n : Nat) (s : State), s.tracker.mode ≠ .free →
    (∀ d, 52 ≤ s.tracker.position + 1 →
      ∃ b, (decideByCrossing n (some d) s).2 = some b ∧ b.instant = n ∧ b.direction = d ∧
        b.locked = decide (s.tracker.mode = .locked) ∧
        (decideByCrossing n (some d) s).1.tracker.forcedRun = 0 ∧
        (decideByCrossing n (some d) s).1.tracker.position = 0 ∧
        (s.tracker.mode = .locked → (decideByCrossing n (some d) s).1.tracker.mode = .locked) ∧
        (s.tracker.mode = .seeking →
          (decideByCrossing n (some d) s).1.tracker.crossingCloses = s.tracker.crossingCloses + 1 ∧
          (decideByCrossing n (some d) s).1.tracker.mode =
            if 2 ≤ s.tracker.crossingCloses + 1 then .locked else .seeking)) ∧
    (∀ d, s.tracker.position + 1 ≤ 51 →
      decideByCrossing n (some d) s = (s.setTracker { s.tracker with
        position := s.tracker.position + 1, decision := some n, chatter := bump s.tracker.chatter }, none)) ∧
    (s.tracker.position + 1 < 76 →
      decideByCrossing n none s =
        (s.setTracker { s.tracker with position := s.tracker.position + 1, decision := some n }, none)) ∧
    (76 ≤ s.tracker.position + 1 →
      ∃ b, (decideByCrossing n none s).2 = some b ∧ b.instant = n ∧
        b.direction = s.tracker.lastDirection.opposite ∧ b.locked = decide (s.tracker.mode = .locked) ∧
        (decideByCrossing n none s).1.tracker.forcedCloses = bump s.tracker.forcedCloses ∧
        (decideByCrossing n none s).1.tracker.reference = s.tracker.reference ∧
        (s.tracker.mode = .locked → s.tracker.forcedRun + 1 < 4 →
          (decideByCrossing n none s).1.tracker.mode = .locked ∧
            (decideByCrossing n none s).1.tracker.forcedRun = s.tracker.forcedRun + 1) ∧
        (s.tracker.mode = .seeking ∨ 4 ≤ s.tracker.forcedRun + 1 →
          (decideByCrossing n none s).1.tracker.mode = .free ∧
            (decideByCrossing n none s).1.tracker.forcedRun = 0 ∧
            (decideByCrossing n none s).1.tracker.crossingCloses = 0) ∧
        (s.tracker.mode = .locked → 4 ≤ s.tracker.forcedRun + 1 →
          (decideByCrossing n none s).1.tracker.change.map (fun c => (c.reason, c.previous, c.next)) =
              some (.unlocked, s.tracker.reference, s.tracker.reference) ∧
            hasSource (decideByCrossing n none s).1.notices.requests 5 = true))

/-- HANDOVER. Handover leaves FREE with every passed instant decided, takes the first candidate that qualifies or none, counts,
forgets the side, writes the reference change record and raises REFERENCE_CHANGE (R33, R34); a reference looked for with
none held is the first candidate that qualifies (R32). -/
def Obligations.HandoverTakesTheFirstCandidate : Prop :=
  (∀ (reason : ChangeReason) (s : State),
    let t := handover reason s
    t.tracker.mode = .free ∧ (s.tracker.mode ≠ .free → s.instant ≤ t.tracker.undecided) ∧
    t.tracker.reference = s.tracker.candidates.find? (qualifies s) ∧
    t.tracker.handoverCount = (s.tracker.handoverCount + 1) % 2 ^ 32 ∧ t.tracker.side = .unknown ∧
    t.tracker.crossingCloses = 0 ∧ t.tracker.forcedRun = 0 ∧
    t.tracker.change = some
      ⟨reason, s.tracker.reference, t.tracker.reference, t.tracker.decision, t.tracker.handoverCount⟩ ∧
    Raised 5 s t ∧ Keeps [.tracker, .harmonic, .registry, .notices, .dport] s t) ∧
  ∀ s : State, s.tracker.reference = none →
    (s.tracker.candidates.find? (qualifies s) = none → acquire s = s) ∧
    ∀ c, s.tracker.candidates.find? (qualifies s) = some c →
      (acquire s).tracker =
        { s.tracker with
          reference := some c, handoverCount := (s.tracker.handoverCount + 1) % 2 ^ 32, side := .unknown
          change := some
            ⟨.acquired, none, some c, s.tracker.decision, (s.tracker.handoverCount + 1) % 2 ^ 32⟩ } ∧
      Raised 5 s (acquire s) ∧ Keeps [.tracker, .notices, .dport] s (acquire s)

/-! ### Half-cycle RMS and episodes -/

/-- EVENTS. A watched channel at an ungapped close with nothing staged (R44, R45): in NORMAL the first threshold passed opens
the event of its kind; in DIP, INTERRUPTED and SWELL the event closes as it stands, or the state holds or changes and the close is
counted in it (R46). Nc is 1 or more for a watched channel (R40). A staged entry takes effect before the close is judged, with
RETHRESHOLD on an open event whose thresholds it changes (R42). At a gapped close the state holds and an open event counts it
with GAPPED. With watch no an open event counts the close and closes with UNWATCHED (R47), and a channel without one that is not
eligible keeps its state (R43). -/
def Obligations.ChannelsFollowTheirThresholds : Prop :=
  (∀ (ch : Chan) (k : LaneClose) (r : Nat) (c : ChannelState),
    c.staged = none → c.inForce.watch = true → 1 ≤ c.inForce.nc →
      let t := c.inForce
      let o := takeChannel ch true k (some r) c
      let d := o.1
      let ended := fun (e : EventEntry) => d.state = .normal ∧ d.event = none ∧ o.2.1 = .closed e c.listed
      let goesOn := fun (st : EventState) (kind : EventKind) (e : EventEntry) =>
        d.state = st ∧ d.listed = c.listed ∧ o.2.1 = .nothing ∧
          ∃ x, d.event = some x ∧ CloseCounted k t.nc (some r) false kind e x
      d.held = some r ∧ d.inForce = t ∧
      (c.event = none →
        (∀ st kind,
          (r * 1000 < t.nc * t.ti ∧ (st, kind) = (EventState.interrupted, EventKind.interruption)) ∨
            (t.nc * t.ti ≤ r * 1000 ∧ r * 1000 < t.nc * t.ts ∧ (st, kind) = (.dip, .dip)) ∨
            (t.nc * t.ti ≤ r * 1000 ∧ t.nc * t.ts ≤ r * 1000 ∧ t.nc * t.tw < r * 1000 ∧
              (st, kind) = (.swell, .swell)) →
          d.state = st ∧ ∃ e, o.2.1 = .opened e ∧ d.event = some e ∧
            e = ⟨ch, kind, k.start, k.instant, 1, r, min 65535 (r * 1000 / t.nc),
              ⟨false, k.clip, false, false, false, false, false⟩⟩) ∧
        (t.nc * t.ti ≤ r * 1000 → t.nc * t.ts ≤ r * 1000 → r * 1000 ≤ t.nc * t.tw →
          d.state = c.state ∧ d.event = none)) ∧
      ∀ e, c.event = some e →
        (c.state = .dip →
          (r * 1000 < t.nc * t.ti → goesOn .interrupted .interruption e) ∧
          (t.nc * t.ti ≤ r * 1000 → t.nc * (t.ts + t.hy) ≤ r * 1000 → ended e) ∧
          (t.nc * t.ti ≤ r * 1000 → r * 1000 < t.nc * (t.ts + t.hy) → goesOn .dip e.kind e)) ∧
        (c.state = .interrupted →
          (t.nc * (t.ts + t.hy) ≤ r * 1000 → ended e) ∧
          (r * 1000 < t.nc * (t.ts + t.hy) → t.nc * (t.ti + t.hy) ≤ r * 1000 → goesOn .dip e.kind e) ∧
          (r * 1000 < t.nc * (t.ts + t.hy) → r * 1000 < t.nc * (t.ti + t.hy) →
            goesOn .interrupted .interruption e)) ∧
        (c.state = .swell →
          (r * 1000 ≤ t.nc * (t.tw - t.hy) → ended e) ∧
          (t.nc * (t.tw - t.hy) < r * 1000 → goesOn .swell e.kind e))) ∧
  (∀ (ch : Chan) (live : Bool) (k : LaneClose) (code : Option Nat) (c : ChannelState) (t : ThresholdEntry),
    c.staged = some t →
      let flagged := fun (e : EventEntry) =>
        if t.watch = true ∧ t ≠ c.inForce then { e with flags := { e.flags with rethreshold := true } } else e
      let o := takeChannel ch live k code
        { c with inForce := t, staged := none, pendingUnwatched := false, event := c.event.map flagged }
      takeChannel ch live k code c = (o.1, o.2.1, true)) ∧
  (∀ (ch : Chan) (live : Bool) (k : LaneClose) (c : ChannelState), c.staged = none →
    (k.gap = true → rmsCodes k = Quad.fill none) ∧
    (c.event = none → takeChannel ch live k none c = (c, .nothing, false)) ∧
    ∀ e, c.event = some e → c.inForce.watch = true →
      let o := takeChannel ch live k none c
      o.2.1 = .nothing ∧ ∃ x, o.1 = { c with event := some x } ∧ CloseCounted k c.inForce.nc none false e.kind e x) ∧
  ∀ (ch : Chan) (live : Bool) (k : LaneClose) (code : Option Nat) (c : ChannelState), c.staged = none →
    (∀ e, c.event = some e → c.inForce.watch = false →
      let o := takeChannel ch live k code c
      o.1.state = .normal ∧ o.1.event = none ∧
        ∃ x, o.2.1 = .closed x c.listed ∧ CloseCounted k c.inForce.nc code true e.kind e x) ∧
    (c.event = none → (live = false ∨ c.inForce.watch = false) →
      takeChannel ch live k code c =
        ({ c with held := code.or c.held }, .nothing, false))

/-- EPISODE. An episode opens with the events of a close, numbered from the OPEN site, whose next number moves on, and
EPISODE_OPEN is raised (R50, R128); the open episode closes into its record, whose start, end and worst channel are those
of its events, and the record joins the outbox of 4 or is counted as lost (R53, R54). At 6000 half-cycles an open episode is
split (R56): the old one closes with CONTINUES, and its open event goes on in a new one with CONTINUATION, from the instant
after its lane's last close. That the capture unit is told of the split alone is the model's choice (log 17). -/
def Obligations.EpisodesOpenAndCloseWithTheirEvents : Prop :=
  (∀ (number : Nat) (evs : List EventEntry) (site : SiteEntry) (s : State),
    RegistryOk s.sites.registry → s.openSite = some site → s.episodes.current = none → evs ≠ [] → evs.length ≤ 4 →
      ∃ e, (openEpisode number evs s).episodes.current = some e ∧ e.site = site.id ∧ e.number = site.nextEpisode ∧
        e.firstBoundary = number ∧ e.seconds = s.clock.seconds ∧ e.events = evs.map (fun x => (x, true)) ∧
        e.openChannels = evs.map (fun x => x.chan) ∧ e.dropped = 0 ∧
        ((openEpisode number evs s).site site.id).map (fun x => x.nextEpisode) =
          some (if site.nextEpisode < 65535 then site.nextEpisode + 1 else 1) ∧
        hasSource (openEpisode number evs s).notices.requests 0 = true) ∧
  (∀ (e : Episode) (s : State), s.episodes.current = some e → e.events ≠ [] →
    (closeEpisode s).episodes.current = none ∧ hasSource (closeEpisode s).notices.requests 1 = true ∧
    (4 ≤ s.episodes.outbox.length →
      (closeEpisode s).episodes.outbox = s.episodes.outbox ∧
        (closeEpisode s).episodes.lost = bump s.episodes.lost) ∧
    (s.episodes.outbox.length < 4 →
      ∃ r, (closeEpisode s).episodes.outbox = s.episodes.outbox ++ [r] ∧
        (closeEpisode s).episodes.lost = s.episodes.lost ∧
        (r.site, r.number, r.seconds, r.dropped, r.captureIds, r.flags) =
          (e.site, e.number, e.seconds, e.dropped, e.captureIds, e.flags) ∧
        r.events = e.events.map (fun x => x.1) ∧
        (∀ x ∈ r.events, r.start ≤ x.start ∧ x.stop ≤ r.stop) ∧
        (∃ x ∈ r.events, r.start = x.start) ∧ (∃ x ∈ r.events, r.stop = x.stop) ∧
        ∃ pre x post, r.events = pre ++ x :: post ∧ r.worst = x.chan ∧ r.worstPermille = x.permille ∧
          (∀ y ∈ pre, distance y.permille 1000 < distance x.permille 1000) ∧
          ∀ y ∈ post, distance y.permille 1000 ≤ distance x.permille 1000)) ∧
  (∀ (number : Nat) (e : Episode) (s : State), s.episodes.current = some e →
    (number < e.firstBoundary + 5999 → splitIfDue number s = s) ∧
    (e.firstBoundary + 5999 ≤ number → splitIfDue number s = splitEpisode number s)) ∧
  ∀ (number : Nat) (e : Episode) (site : SiteEntry) (ch : Chan) (v : EventEntry) (l : Lane) (s : State),
    RegistryOk s.sites.registry → s.episodes.current = some e → s.openSite = some site → e.openChannels = [ch] →
    (s.chan ch).event = some v → v.chan = ch → (s.chan ch).listed = true → (s.slot ch.slot).lane = some l →
      let t := splitEpisode number s
      let carried : EventEntry :=
        { v with
          start := l.halfStart, stop := l.halfStart - 1, halfCycles := 0
          flags := ⟨false, false, false, false, false, false, true⟩ }
      (∃ d, t.episodes.current = some d ∧ (d.site, d.number, d.firstBoundary) = (site.id, site.nextEpisode, number + 1) ∧
        d.events = [(carried, true)] ∧ d.openChannels = [ch] ∧ d.dropped = 0 ∧ d.flags.continuation = true ∧
        d.flags.continues = false) ∧
      t.chan ch = { s.chan ch with event := some carried, listed := true } ∧
      (∀ c, c ≠ ch → t.chan c = s.chan c) ∧
      ((t.site site.id).map (fun x => x.nextEpisode) =
        some (if site.nextEpisode < 65535 then site.nextEpisode + 1 else 1)) ∧
      hasSource t.notices.requests 0 = true ∧ hasSource t.notices.requests 1 = true ∧
      (s.episodes.outbox.length < 4 → ∃ r, t.episodes.outbox = s.episodes.outbox ++ [r] ∧ r.number = e.number ∧
        r.flags = { e.flags with continues := true } ∧
        r.events = e.events.map (fun x => if x.2 = true ∧ x.1.chan = ch then v else x.1)) ∧
      (4 ≤ s.episodes.outbox.length →
        t.episodes.outbox = s.episodes.outbox ∧ t.episodes.lost = bump s.episodes.lost)

/-! ### Waveform capture -/

/-- PRE. A capture in PRE that has not caught up moves the ring's next set into staging when there is room (R66); a held gap
run that waited for room is placed as one gap run of four bytes, and stays held, growing, until there is room (R64). A
LANE_INSTANT hands its instant to a capture in DURING or POST: a set with room is placed behind the held run, which it closes,
and counted (R67, R69), a gap instant joins the held run, and so does a set that finds fewer than 8 bytes free, with SKIPPED
(R72). The port is taken, so no burst begins. That the instants of a new section join a run still held ahead of its header is
the model's choice (log 55), and so is that the bytes of a burst in progress still take up staging (log 41). An episode that
opens while a capture settles is joined: a capture in POST goes on in DURING or TREND with a new section, one in PRE stays
there, and one whose list holds 4 closes with the episode pending (R70). An instant that a lane processes is written into its
slot's ring of pre × 128 places (R62): while the ring fills it joins the end, and in a full ring it takes the place of the
oldest. -/
def Obligations.CapturesMoveEntriesIntoStaging : Prop :=
  (∀ (i : Slot) (l : Lane) (n : Nat) (x : SampleSet) (s : State),
    (s.slot i).lane = some l → s.store.holder ≠ .none → (s.cap i).phase = .pre → (s.cap i).preNext = some n →
    n + 1 < l.position → (s.cap i).preLimit = none → (s.cap i).ring[(s.cap i).readPos]? = some (some x) →
    (s.cap i).headerDue = none → (s.cap i).waiting = [] → (s.cap i).behind = [] → (s.cap i).held = Counts.zero → (s.cap i).runDue = false →
    itemsSize (s.cap i).staging + busyBytes s i + 8 ≤ 2048 →
      ∃ t, exec (.capturePreRead i) s = .next t ∧
        t.cap i =
          { s.cap i with
            readPos := if (s.cap i).readPos + 1 < (s.cap i).entry.pre * 128 then (s.cap i).readPos + 1 else 0
            preUnread := (s.cap i).preUnread - 1
            counts :=
              if (s.cap i).preUnread = 0
              then { (s.cap i).counts with during := (s.cap i).counts.during + 1 }
              else { (s.cap i).counts with pre := (s.cap i).counts.pre + 1 }
            staging := (s.cap i).staging ++
              [⟨.set x, if (s.cap i).preUnread = 0 then ⟨0, 1, 0, 0⟩ else ⟨1, 0, 0, 0⟩⟩] } ∧
        (∀ j, j ≠ i → t.cap j = s.cap j) ∧ Keeps [.capture] s t) ∧
  (∀ (i : Slot) (s : State), s.store.holder ≠ .none → (s.cap i).waiting = [] → (s.cap i).runDue = true →
    0 < (s.cap i).held.instants → (s.cap i).held.instants < 65535 →
    (2048 < itemsSize (s.cap i).staging + busyBytes s i + 4 → exec (.heldGapRunPlace i) s = .next s) ∧
    ((s.cap i).behind = [] → itemsSize (s.cap i).staging + busyBytes s i + 4 ≤ 2048 →
      ∃ t, exec (.heldGapRunPlace i) s = .next t ∧
        t.cap i =
          { s.cap i with
            staging := (s.cap i).staging ++ [⟨.gapRun (s.cap i).held.instants, (s.cap i).held⟩]
            held := Counts.zero, runDue := false } ∧
        (∀ j, j ≠ i → t.cap j = s.cap j) ∧ Keeps [.capture] s t)) ∧
  (∀ (c : CaptureSlot) (k : SectionKind) (busy : Nat), c.waiting = [] → 2048 < itemsSize c.staging + busy + 4 →
    (c.changeSection k busy).held = c.held ∧ (c.changeSection k busy).staging = c.staging ∧
      ((c.changeSection k busy).runDue = true ↔ 0 < c.held.instants) ∧ (c.changeSection k busy).headerDue = some k) ∧
  (∀ (i : Slot) (l : Lane) (f : IngressFrame) (rest : List IngressFrame) (x : Option SampleSet) (one : Counts) (m : Nat)
    (s : State),
    (s.slot i).lane = some l → (s.slot i).ingress = f :: rest → f.taken = true → CountersOk s →
    (l.position < f.next ∧ x = none ∨ f.next = l.position ∧ f.sets ≠ [] ∧ x = f.sets.head?) →
    published s i l.position = true → lagging s l = none → s.tracker.follows i = false → s.store.holder ≠ .none →
    (∀ b ∈ s.tracker.list, b.number = l.lastBoundary + 1 → b.instant ≠ l.position) →
    ((s.cap i).phase = .during ∧ one = ⟨0, 1, 0, 0⟩ ∨ (s.cap i).phase = .post ∧ one = ⟨0, 0, 1, 0⟩) →
    (s.cap i).flags.lean = false → (s.cap i).first = some m → (s.cap i).waiting = [] →
      let c := s.cap i
      let used := itemsSize c.staging + busyBytes s i
      ∃ t, exec (.laneInstant i) s = .next t ∧ (∀ j, j ≠ i → t.cap j = s.cap j) ∧ Keeps [.slots, .capture, .harmonic] s t ∧
        (∀ y, x = some y → c.headerDue = none → c.behind = [] →
          used + 8 + (if c.held.instants = 0 then 0 else 4) ≤ 2048 →
            (t.cap i).staging = c.staging ++
              (if c.held.instants = 0 then [] else [⟨.gapRun c.held.instants, c.held⟩]) ++ [⟨.set y, one⟩] ∧
            (t.cap i).held.instants = 0 ∧ (t.cap i).counts = c.counts.add one ∧ (t.cap i).flags = c.flags ∧
            (t.cap i).phase = c.phase) ∧
        ((c.headerDue = none ∨ 0 < c.held.instants) → (c.runDue = true → 2048 < used + 4) → c.held.instants + 1 < 65535 →
          (x = none ∨ 2048 < used + 8) →
            (t.cap i).held = c.held.add one ∧ (t.cap i).counts = c.counts.add one ∧ (t.cap i).staging = c.staging ∧
            (t.cap i).runDue = c.runDue ∧ (t.cap i).waiting = [] ∧ (t.cap i).behind = c.behind ++ c.headerDue.toList ∧
            (t.cap i).flags = { c.flags with skipped := c.flags.skipped || x.isSome } ∧ (t.cap i).phase = c.phase)) ∧
  (∀ (i : Slot) (site number id : Nat) (e : Episode) (s : State),
    s.isActive i = true → (s.cap i).entry.enabled = true → (s.cap i).recordId = some id →
    s.episodes.current = some e →
      let t := episodeOpenedOn site number s i
      let c := s.cap i
      (c.phase = .post ∨ c.phase = .pre ∧ c.flags.manual = false ∧ c.episodesClosed = true) →
        Keeps [.capture, .episodes] s t ∧ (∀ j, j ≠ i → t.cap j = s.cap j) ∧
        (c.episodes.length < 4 →
          t.episodes = { s.episodes with current := some { e with captureIds := e.captureIds ++ [id] } } ∧
          (t.cap i).episodes = c.episodes ++ [number] ∧ (t.cap i).remaining = 0 ∧
          (t.cap i).flags = { c.flags with joined := true } ∧
          (c.phase = .pre → (t.cap i).phase = .pre ∧ (t.cap i).episodesClosed = false) ∧
          (c.phase = .post → ((t.cap i).phase, (t.cap i).headerDue) =
            if c.flags.lean then (.trend, c.headerDue)
            else if c.halfCycles < 128 then (.during, some .waveform)
            else (.trend, some .trend))) ∧
        (4 ≤ c.episodes.length →
          (t.cap i).phase = .closing ∧ (t.cap i).pending = some number ∧ (t.cap i).episodes = c.episodes ∧
            t.episodes = s.episodes)) ∧
  ∀ (c : CaptureSlot) (x : Option SampleSet), 0 < c.entry.pre → c.ring.length ≤ c.entry.pre * 128 →
    c.ringWrite = (if c.ring.length < c.entry.pre * 128 then c.ring.length else c.ringWrite) →
    c.ringWrite < c.entry.pre * 128 →
      let d := c.writeRing x
      d.ring.drop d.oldest ++ d.ring.take d.oldest =
        ((c.ring.drop c.oldest ++ c.ring.take c.oldest) ++ [x]).drop
          (if c.ring.length < c.entry.pre * 128 then 0 else 1) ∧
      d.ring.length = min (c.entry.pre * 128) (c.ring.length + 1) ∧ d.ringWrite < c.entry.pre * 128

/-! ### Harmonic analysis -/

/-- FIGURES. The amplitude of R92 from exact sums, isqrt being the largest root whose square does not exceed the sum; the
ratios and the total distortion of R93; and what folding a valid window adds to an aggregate (R94). -/
def Obligations.WindowFiguresFollowTheFormulas : Prop :=
  (∀ (n : Nat) (i q : Int), ∃ m : Nat, m * m ≤ i.natAbs ^ 2 + q.natAbs ^ 2 ∧
    i.natAbs ^ 2 + q.natAbs ^ 2 < (m + 1) * (m + 1) ∧
    amplitude n (i, q) = min 32767 ((4 * m + n * 32767) / (2 * n * 32767))) ∧
  (∀ (a1 : Nat) (others : List Nat), 16 ≤ a1 → ∃ m : Nat,
    m * m ≤ (others.map (fun a => a * a)).sum ∧ (others.map (fun a => a * a)).sum < (m + 1) * (m + 1) ∧
    distortion a1 others = min 65535 (m * 10000 / a1)) ∧
  (∀ a1 a : Nat, ratio a1 a = if 16 ≤ a1 then min 65535 (a * 10000 / a1) else 0) ∧
  (∀ (a1 : Nat) (others : List Nat), a1 < 16 → distortion a1 others = 0) ∧
  ∀ (a1 : Nat) (others : List Nat) (a : Aggregate), a.bins.length = others.length + 1 →
    let b := a.fold (a1 :: others)
    b.valid = a.valid + 1 ∧ b.void = a.void ∧ b.noFund = (if a1 < 16 then a.noFund + 1 else a.noFund) ∧
    b.thdSum = a.thdSum + distortion a1 others ∧ b.thdMax = max a.thdMax (distortion a1 others) ∧
    b.bins.length = a.bins.length ∧
    ∀ (k : Nat) (x : Nat) (f : BinFigures), (a1 :: others)[k]? = some x → a.bins[k]? = some f →
      b.bins[k]? = some ⟨f.ampSum + x, max f.ampMax x, max f.ratioMax (ratio a1 x)⟩

/-- WINDOW. With a site OPEN a window starts at a RISING boundary when none has its end open (R84); each boundary made while
its end is open adds its half-cycle, and the sixteenth is its end (R85). -/
def Obligations.WindowsSpanSixteenHalfCycles : Prop :=
  (∀ (b : Boundary) (site : SiteEntry) (s : State), s.openSite = some site → b.direction = .rising →
    s.harmonic.staged = none → (∀ w ∈ s.harmonic.schedule, w.stop.isSome ∧ w.start ≠ b.number) →
      ∃ w, (windowStart b s).harmonic.schedule = s.harmonic.schedule ++ [w] ∧ w.start = b.number ∧ w.stop = none ∧
        w.length = 0 ∧ w.closes = 0 ∧ w.allLocked = b.locked ∧ w.handovers = b.handovers ∧ w.handoverChanged = false ∧
        ∀ i, w.done.get i = !(s.isActive i && (windowStart b s).harmonic.current.any (fun v => v.watches i))) ∧
  ∀ (b : Boundary) (length : Nat) (pre : List Window) (w : Window) (s : State),
    s.harmonic.schedule = pre ++ [w] → w.stop = none → (∀ x ∈ pre, x.stop.isSome ∧ x.start ≠ w.start) →
      (w.closes < 15 →
        (windowBoundary b length s).harmonic =
          { s.harmonic with
            schedule := pre ++
              [{ w with
                length := w.length + length, closes := w.closes + 1, allLocked := w.allLocked && b.locked
                handoverChanged := w.handoverChanged || b.handovers != w.handovers }] } ∧
        Keeps [.harmonic] s (windowBoundary b length s)) ∧
      ∀ (i : Slot) (v : Interval), w.closes = 15 → w.done.get i = false → w.interval = .current →
        s.harmonic.current = some v → v.windows + 1 < v.m →
          (windowBoundary b length s).harmonic.window w.start = some
            { w with
              length := w.length + length, closes := 16, allLocked := w.allLocked && b.locked
              handoverChanged := w.handoverChanged || b.handovers != w.handovers, stop := some b.number } ∧
          (windowBoundary b length s).harmonic.current = some { v with windows := v.windows + 1, stop := b.instant } ∧
          Keeps [.harmonic, .registry] s (windowBoundary b length s)

/-! ### The record store -/

/-- BYTES. Bytes written into a record read back from it, and no byte of the record memory outside the places they went to
changes (R102). A record's bytes are cut into frames of up to 512 bytes each, in order and together all of them, each frame
at its offset and the last alone flagged LAST (R55, R188). -/
def Obligations.RecordBytesReadBackAndAreFramed : Prop :=
  (∀ (m : List Host.Cell) (chain : List Nat) (o : Nat) (bytes : List Byte),
    memWf m = true → chain.Nodup → o + bytes.length ≤ chain.length * 1024 →
      readRecord (writeRecord m chain o bytes) chain o bytes.length = bytes ∧
      ∀ a, (∀ k, k < bytes.length → chainAddr chain (o + k) ≠ a) →
        readByte (writeRecord m chain o bytes) a = readByte m a) ∧
  ∀ (id : Nat) (bytes : List Byte),
    let frames := recordFrames id (bytes.length / 512 + 1) 0 bytes
    frames.flatMap (fun f => f.data) = bytes ∧
    (∀ f ∈ frames, f.id = id ∧ f.data.length ≤ 512) ∧
    (∀ (k : Nat) (f : RecordFrame), frames[k]? = some f → f.offset = 512 * k ∧ f.last = decide (k + 1 = frames.length)) ∧
    frames ≠ []

/-- ADMIT. The writers take the oldest record of their outbox (R54, R98, R107): with no site it is refused, counted as lost and
removed; with a place, an id and its pages allowed without reclaim, it claims the first unclaimed pages and stays in the
outbox. A HARMONIC record leaves the reserve of 8. The port is taken, so no burst begins. RECLAIM. A request that is not satisfied
removes the oldest COMPLETE entry that nothing pins or holds and is judged again, and is refused where none qualifies, the
entries removed staying removed (R109); the place is judged before the pages. That a request with no id left is refused before any
reclaim is the model's choice (log 19, log 48). -/
def Obligations.WritersAdmitTheOldestRecord : Prop :=
  (∀ (ok : State → Bool) (s : State), (s.store.dir.map (fun d => d.id)).Nodup →
    let kept := fun (d : DirEntry) => d.state = .complete → d.pins ≠ 0 ∨ d.holds ≠ 0
    (ok s = true → requestAll ok s = (s, true)) ∧
    (ok s = false → (∀ d ∈ s.store.dir, kept d) → requestAll ok s = (s, false)) ∧
    ∀ pre e post, ok s = false → s.store.dir = pre ++ e :: post → (∀ d ∈ pre, kept d) → ¬kept e →
      ∃ t, Reclaimed e s t ∧ requestAll ok s = requestAll ok t) ∧
  (∀ (r : EpisodeRecord) (rest : List EpisodeRecord) (s : State),
    s.episodes.writer = none → s.episodes.outbox = r :: rest → (s.site r.site).isSome →
      let a := requestAll placeFree s
      let b := requestAll (pagesAllowed 0 (pagesFor r.length)) a.1
      let refused := fun (u : State) => exec .episodeWriteStart s =
        .next (u.setEpisodes { s.episodes with outbox := rest, lost := bump s.episodes.lost })
      (idLeft s = false → refused s) ∧ (idLeft s = true → a.2 = false → refused a.1) ∧
      (idLeft s = true → a.2 = true → b.2 = false → refused b.1) ∧
      (idLeft s = true → a.2 = true → b.2 = true → s.store.holder ≠ .none →
        ∃ t, exec .episodeWriteStart s = .next t ∧ t.store = b.1.store ∧
          t.episodes = { s.episodes with writer := some ⟨(unclaimed b.1).take (pagesFor r.length), 0, none⟩ } ∧
          t.sites.registry = b.1.sites.registry.map
            (fun e => if e.id = r.site then { e with pending := e.pending + 1 } else e) ∧
          hasSource t.notices.requests 4 = storeLow t ∧ Keeps [.episodes, .directory, .registry, .notices, .dport] s t)) ∧
  (∀ (r : HarmonicRecord) (rest : List HarmonicRecord) (s : State),
    s.harmonic.writer = none → s.harmonic.outbox = r :: rest → (s.site r.site).isSome →
      let a := requestAll placeFree s
      let b := requestAll (pagesAllowed 8 (pagesFor r.length)) a.1
      let refused := fun (u : State) => exec .harmonicWriteStart s =
        .next (u.setHarmonic { s.harmonic with outbox := rest, lost := bump s.harmonic.lost })
      (idLeft s = false → refused s) ∧ (idLeft s = true → a.2 = false → refused a.1) ∧
      (idLeft s = true → a.2 = true → b.2 = false → refused b.1) ∧
      (idLeft s = true → a.2 = true → b.2 = true → s.store.holder ≠ .none →
        ∃ t, exec .harmonicWriteStart s = .next t ∧ t.store = b.1.store ∧
          t.harmonic = { s.harmonic with writer := some ⟨(unclaimed b.1).take (pagesFor r.length), 0, none⟩ } ∧
          t.sites.registry = b.1.sites.registry.map
            (fun e => if e.id = r.site then { e with pending := e.pending + 1 } else e) ∧
          hasSource t.notices.requests 4 = storeLow t ∧ Keeps [.harmonic, .directory, .registry, .notices, .dport] s t)) ∧
  (∀ (r : EpisodeRecord) (rest : List EpisodeRecord) (s : State),
    s.episodes.writer = none → s.episodes.outbox = r :: rest →
      (s.site r.site = none → exec .episodeWriteStart s =
        .next (s.setEpisodes { s.episodes with outbox := rest, lost := bump s.episodes.lost })) ∧
      ((s.site r.site).isSome → s.store.holder ≠ .none → placesUsed s < 1024 → idLeft s = true →
        pagesFor r.length ≤ freeCount s →
          ∃ t, exec .episodeWriteStart s = .next t ∧
            t.episodes = { s.episodes with writer := some ⟨(unclaimed s).take (pagesFor r.length), 0, none⟩ } ∧
            t.sites.registry = s.sites.registry.map
              (fun e => if e.id = r.site then { e with pending := e.pending + 1 } else e) ∧
            hasSource t.notices.requests 4 = storeLow t ∧ Keeps [.episodes, .registry, .notices, .dport] s t)) ∧
  ∀ (r : HarmonicRecord) (rest : List HarmonicRecord) (s : State),
    s.harmonic.writer = none → s.harmonic.outbox = r :: rest →
      (s.site r.site = none → exec .harmonicWriteStart s =
        .next (s.setHarmonic { s.harmonic with outbox := rest, lost := bump s.harmonic.lost })) ∧
      ((s.site r.site).isSome → s.store.holder ≠ .none → placesUsed s < 1024 → idLeft s = true →
        pagesFor r.length + 8 ≤ freeCount s →
          ∃ t, exec .harmonicWriteStart s = .next t ∧
            t.harmonic = { s.harmonic with writer := some ⟨(unclaimed s).take (pagesFor r.length), 0, none⟩ } ∧
            t.sites.registry = s.sites.registry.map
              (fun e => if e.id = r.site then { e with pending := e.pending + 1 } else e) ∧
            hasSource t.notices.requests 4 = storeLow t ∧ Keeps [.harmonic, .registry, .notices, .dport] s t)

/-- BURST. A burst of capture entries ends (R106, R113): their bytes stand in the record from the entry's length on, the length
grows by them, and no other byte of the record memory changes. The burst of a capture's header completes it (R75): the header
stands in the record's first 64 bytes, the entry is COMPLETE with the capture's flags and first instant, CAPTURE_DONE is
raised, the capture slot is IDLE and a slot in ENDING is EMPTY. A capture left with nothing it took has no first instant: the
model's choice where entries were discarded (log 53). A burst of the readout brings the rest of its block into the frame
buffer, and what is beyond the 512th byte into the carry-over (R118). -/
def Obligations.CaptureBurstsAppendTheirBytes : Prop :=
  (∀ (i : Slot) (items : List StagedItem) (id : Nat) (e : DirEntry) (paper : Paper) (s : State),
    s.store.burst = some (.captureItems i items) → (s.cap i).recordId = some id → s.entry id = some e →
    e.state = .writing → (s.store.dir.map (fun d => d.id)).Nodup →
      let bytes := items.flatMap (fun x => itemBytes x.item)
      ∃ t, exec (.storeBurstEnd paper) s = .next t ∧
        t.store.mem = writeRecord s.store.mem e.chain e.length bytes ∧
        (∀ a, (∀ k, k < bytes.length → chainAddr e.chain (e.length + k) ≠ a) →
          readByte t.store.mem a = readByte s.store.mem a) ∧
        (t.entry id).map (fun d => (d.length, d.state)) = some (e.length + bytes.length, .writing) ∧
        Keeps [.memory, .directory, .port, .registry, .capture, .episodes, .harmonic, .notices, .dport] s t) ∧
  (∀ (i : Slot) (id : Nat) (e : DirEntry) (paper : Paper) (s : State),
    s.store.burst = some (.captureHeader i) → (s.cap i).recordId = some id → s.entry id = some e →
    (s.cap i).pending = none → (∀ j, j ≠ i → (s.cap j).work = false) →
      let first := if (s.cap i).counts = ⟨0, 0, 0, 0⟩ then none else (s.cap i).first
      ∃ t, exec (.storeBurstEnd paper) s = .next t ∧
        t.store.mem =
          writeRecord s.store.mem e.chain 0 (captureHeaderBytes i { s.cap i with first := first } id e.length) ∧
        (∀ a, (∀ k, k < 64 → chainAddr e.chain k ≠ a) → readByte t.store.mem a = readByte s.store.mem a) ∧
        t.entry id = some { e with state := .complete, flags := (s.cap i).flags.pack, start := first.getD e.start } ∧
        hasSource t.notices.requests 2 = true ∧
        t.cap i = { CaptureSlot.reset with
          entry := (s.cap i).entry, ring := (s.cap i).ring, ringWrite := (s.cap i).ringWrite } ∧
        (∀ j, j ≠ i → t.cap j = s.cap j ∧ t.slot j = s.slot j) ∧
        ((s.slot i).phase ≠ .ending → t.slot i = s.slot i ∧ t.session.event = s.session.event) ∧
        ((s.slot i).phase = .ending → (t.slot i).phase = .empty ∧ (t.slot i).serial = 0 ∧
          t.session.event = some ⟨some i, (s.slot i).serial, .ended (s.slot i).endReason⟩ ∧
          hasSource t.notices.requests 6 = true) ∧
        Keeps [.memory, .directory, .port, .capture, .slots, .event, .episodes, .harmonic, .notices, .dport] s t) ∧
  ∀ (e : DirEntry) (paper : Paper) (s : State),
    s.store.burst = some .readoutRead → s.entry s.store.readout.id = some e →
      let r := s.store.readout
      let keep := min e.length ((r.next / 64 + 1) * 64) - r.next
      let all := r.buffer ++ readRecord s.store.mem e.chain r.next keep
      ∃ t, exec (.storeBurstEnd paper) s = .next t ∧
        t.store.readout = { r with
          next := r.next + keep, buffer := all.take 512, carry := all.drop 512
          state := if (all.take 512).length = 512 ∨ e.length ≤ r.frameOffset + (all.take 512).length
            then .placing else .reading } ∧
        Keeps [.readout, .port, .directory, .registry, .capture, .episodes, .harmonic, .notices, .dport] s t

/-- COMPLETE. The burst of the first block completes an admitted record (R54, R55, R98, R99, R108): its block is in its pages,
its entry stands COMPLETE under the id it has taken, it has left its outbox, and its copy goes downstream, the EPISODE
record's by auto-send if all its frames have places, the HARMONIC record's into the periodic queue of 2, which pushes its older
record out with HARMONIC_LATE (R99). No capture has anything to move, so no entry is reclaimed after it. The burst of a later
block puts its bytes in place alone (R107, R108): the record stays in its outbox, and no entry is made. -/
def Obligations.FirstBlocksCompleteTheirRecords : Prop :=
  (∀ (r : EpisodeRecord) (rest : List EpisodeRecord) (a : Admitted) (id : Nat) (paper : Paper) (s : State),
    s.store.burst = some (.episodeBlock 0) → s.episodes.writer = some a → a.id = some id →
    s.episodes.outbox = r :: rest → s.entry id = none → nextSlot s = none →
      ∃ t, exec (.storeBurstEnd paper) s = .next t ∧
        t.episodes.outbox = rest ∧ t.episodes.writer = none ∧
        t.store.mem = writeRecord s.store.mem a.pages 0 ((episodeBytes r id).take 64) ∧
        (∀ x, (∀ k, k < 64 → chainAddr a.pages k ≠ x) → readByte t.store.mem x = readByte s.store.mem x) ∧
        t.entry id = some
          ⟨id, .episode, r.site, .complete, a.pages, r.length, r.start, s.clock.seconds, 0, 0, r.flags.pack⟩ ∧
        t.store.free = s.store.free.filter (fun p => !a.pages.contains p) ∧
        t.sites.registry = s.sites.registry.map (fun e => if e.id = r.site then
          { e with records := e.records + 1, pending := e.pending - 1 } else e) ∧
        (s.survey.autoSend = false → t.dport = s.dport ∧ t.episodes.skips = s.episodes.skips) ∧
        (∀ frames, frames = recordFrames id ((episodeBytes r id).length / 512 + 1) 0 (episodeBytes r id) →
          s.survey.autoSend = true →
            (s.dport.record.length + frames.length ≤ 32 → t.dport = s.dport.placeRecords frames) ∧
            (32 < s.dport.record.length + frames.length →
              t.dport = s.dport ∧ t.episodes.skips = bump s.episodes.skips)) ∧
        Keeps [.memory, .directory, .port, .registry, .episodes, .harmonic, .dport] s t) ∧
  (∀ (r : HarmonicRecord) (rest : List HarmonicRecord) (a : Admitted) (id : Nat) (paper : Paper) (s : State),
    s.store.burst = some (.harmonicBlock 0) → s.harmonic.writer = some a → a.id = some id →
    s.harmonic.outbox = r :: rest → s.entry id = none → nextSlot s = none →
      ∃ t, exec (.storeBurstEnd paper) s = .next t ∧
        t.harmonic.outbox = rest ∧ t.harmonic.writer = none ∧
        t.store.mem = writeRecord s.store.mem a.pages 0 ((harmonicBytes r id).take 64) ∧
        (∀ x, (∀ k, k < 64 → chainAddr a.pages k ≠ x) → readByte t.store.mem x = readByte s.store.mem x) ∧
        t.entry id = some
          ⟨id, .harmonic, r.site, .complete, a.pages, r.length, r.start, s.clock.seconds, 0, 0, r.flags.pack⟩ ∧
        (s.dport.periodic.length < 2 →
          t.dport = ({ s.dport with periodic := s.dport.periodic ++ [⟨id, harmonicBytes r id⟩] } : DPort).kick ∧
            t.harmonic.late = s.harmonic.late ∧ t.notices = s.notices) ∧
        (∀ p q, s.dport.periodic = [p, q] →
          t.harmonic.late = bump s.harmonic.late ∧ hasSource t.notices.requests 3 = true ∧
            (s.dport.inFlight.isSome → t.dport.periodic = [q, ⟨id, harmonicBytes r id⟩])) ∧
        Keeps [.memory, .directory, .port, .registry, .episodes, .harmonic, .notices, .dport] s t) ∧
  (∀ (r : EpisodeRecord) (rest : List EpisodeRecord) (a : Admitted) (b id : Nat) (paper : Paper) (s : State),
    s.store.burst = some (.episodeBlock b) → 0 < b → s.episodes.writer = some a → s.episodes.outbox = r :: rest →
      ∃ t, exec (.storeBurstEnd paper) s = .next t ∧
        t.store.mem = writeRecord s.store.mem a.pages (64 * b) (((episodeBytes r id).drop (64 * b)).take 64) ∧
        t.episodes.outbox = s.episodes.outbox ∧
        t.episodes.writer.map (fun x => (x.pages, x.burstsMade)) = some (a.pages, a.burstsMade + 1) ∧
        (nextSlot s = none → t.store.dir = s.store.dir ∧ t.store.free = s.store.free) ∧
        Keeps [.memory, .directory, .port, .registry, .capture, .episodes, .harmonic, .notices, .dport] s t) ∧
  ∀ (r : HarmonicRecord) (rest : List HarmonicRecord) (a : Admitted) (b id : Nat) (paper : Paper) (s : State),
    s.store.burst = some (.harmonicBlock b) → 0 < b → s.harmonic.writer = some a → s.harmonic.outbox = r :: rest →
      ∃ t, exec (.storeBurstEnd paper) s = .next t ∧
        t.store.mem = writeRecord s.store.mem a.pages (64 * b) (((harmonicBytes r id).drop (64 * b)).take 64) ∧
        t.harmonic.outbox = s.harmonic.outbox ∧
        t.harmonic.writer.map (fun x => (x.pages, x.burstsMade)) = some (a.pages, a.burstsMade + 1) ∧
        (nextSlot s = none → t.store.dir = s.store.dir ∧ t.store.free = s.store.free) ∧
        Keeps [.memory, .directory, .port, .registry, .capture, .episodes, .harmonic, .notices, .dport] s t

/-- GRANT. Who has the port, and whose burst begins (R113, R114): with the holder none the primary comes first, then the
waiting secondaries in rotation. At the end of its burst the primary goes on below its quota while a capture has something to
move, and otherwise passes the port to the first waiting secondary, or is granted it again when none waits; a secondary below
its quota goes on, and otherwise passes the port to the primary before the rotation. A capture writer's burst takes the
entries at the head of the next slot's staging that fit in 64 bytes, or its header; that it may straddle a block boundary
inside a page is the model's choice (log 47). -/
def Obligations.PortPassesByTheQuotas : Prop :=
  (∀ s : State, s.store.holder = .none → nextSlot s = none → nextSecondary s s.store.lastServed = none →
    arbitrate s = s) ∧
  (∀ (x : Secondary) (s : State), s.store.holder = .none → nextSlot s = none →
    nextSecondary s s.store.lastServed = some x →
      (arbitrate s).store.holder = .secondary x ∧ (arbitrate s).store.used = 0 ∧
        (arbitrate s).store.lastServed = x) ∧
  (∀ (i : Slot) (s : State), nextSlot s = some i → CaptureBurstHeld i s →
    (s.store.holder = .none → (arbitrate s).store.holder = .primary ∧ (arbitrate s).store.used = 0 ∧
      CaptureBurstBegins i s (arbitrate s)) ∧
    (∀ (x : Secondary) (stopped : Bool),
      (if s.store.qs = 0 then 1 else s.store.qs) ≤ s.store.used ∨ secondaryWaits s x = false ∨ stopped = true →
        (afterSecondary x stopped s).store.holder = .primary ∧ (afterSecondary x stopped s).store.used = 0 ∧
          CaptureBurstBegins i s (afterSecondary x stopped s)) ∧
    (s.store.used < (if s.store.qp = 0 then 1 else s.store.qp) →
      (afterPrimary s).store.holder = s.store.holder ∧ (afterPrimary s).store.used = s.store.used ∧
        (afterPrimary s).store.lastServed = s.store.lastServed ∧ CaptureBurstBegins i s (afterPrimary s)) ∧
    ((if s.store.qp = 0 then 1 else s.store.qp) ≤ s.store.used → nextSecondary s s.store.lastServed = none →
      (afterPrimary s).store.holder = .primary ∧ (afterPrimary s).store.used = 0 ∧
        (afterPrimary s).store.lastServed = s.store.lastServed ∧ CaptureBurstBegins i s (afterPrimary s))) ∧
  (∀ (x : Secondary) (s : State), nextSecondary s s.store.lastServed = some x →
    (if s.store.qp = 0 then 1 else s.store.qp) ≤ s.store.used ∨ nextSlot s = none →
      (afterPrimary s).store.holder = .secondary x ∧ (afterPrimary s).store.used = 0 ∧
        (afterPrimary s).store.lastServed = x) ∧
  (∀ s : State, nextSecondary s s.store.lastServed = none → nextSlot s = none →
    afterPrimary s = s.setStore { s.store with holder := .none }) ∧
  (∀ (x : Secondary) (s : State), s.store.used < (if s.store.qs = 0 then 1 else s.store.qs) →
    secondaryWaits s x = true → s.store.holder = .secondary x →
      (afterSecondary x false s).store.holder = .secondary x ∧
        (afterSecondary x false s).store.used = s.store.used) ∧
  (∀ (x y : Secondary) (stopped : Bool) (s : State), nextSlot s = none → nextSecondary s x = some y →
    (if s.store.qs = 0 then 1 else s.store.qs) ≤ s.store.used ∨ secondaryWaits s x = false ∨ stopped = true →
      (afterSecondary x stopped s).store.holder = .secondary y ∧ (afterSecondary x stopped s).store.used = 0 ∧
        (afterSecondary x stopped s).store.lastServed = y) ∧
  ∀ (x : Secondary) (stopped : Bool) (s : State), nextSlot s = none → nextSecondary s x = none →
    afterSecondary x stopped s = s.setStore { s.store with holder := .none }

/-- READOUT. A readout's frame is placed when the record queue has 4 places and HOLD is not in force (R119): the LAST frame ends
the readout and its hold, another leaves the carried bytes in the buffer. -/
def Obligations.ReadoutFramesArePlaced : Prop :=
  ∀ (e : DirEntry) (s : State), s.store.readout.state = .placing → s.entry s.store.readout.id = some e →
    s.store.holder ≠ .none →
      ((28 < s.dport.record.length ∨ s.dport.hold = true) → exec .readoutFramePlace s = .next s) ∧
      (s.dport.record.length ≤ 28 → s.dport.hold = false →
        (e.length ≤ s.store.readout.frameOffset + s.store.readout.buffer.length →
          ∃ t, exec .readoutFramePlace s = .next t ∧
            t.dport = s.dport.placeRecords
              [⟨s.store.readout.id, s.store.readout.frameOffset, true, s.store.readout.buffer⟩] ∧
            t.store.readout.state = .none ∧
            t.store.dir = s.store.dir.map
              (fun d => if d.id = s.store.readout.id then { d with holds := d.holds - 1 } else d) ∧
            Keeps [.readout, .directory, .dport] s t) ∧
        (s.store.readout.frameOffset + s.store.readout.buffer.length < e.length →
          ∃ t, exec .readoutFramePlace s = .next t ∧
            t.dport = s.dport.placeRecords
              [⟨s.store.readout.id, s.store.readout.frameOffset, false, s.store.readout.buffer⟩] ∧
            t.store.readout.frameOffset = s.store.readout.frameOffset + s.store.readout.buffer.length ∧
            t.store.readout.buffer = s.store.readout.carry ∧ t.store.readout.carry = [] ∧
            t.store.readout.next = s.store.readout.next ∧ t.store.readout.id = s.store.readout.id ∧
            (t.store.readout.state = .placing ↔ s.store.readout.carry.length = 512 ∨
              e.length ≤ s.store.readout.frameOffset + s.store.readout.buffer.length +
                s.store.readout.carry.length) ∧
            Keeps [.readout, .dport] s t))

/-- LIST. RECORD_LIST lists up to 48 entries that match both filters at or above the starting id, and where to continue (R116);
RECORD_READ is judged in the order of R117, and when taken holds the record and answers its length: with its reply placed,
the readout asks for the port. -/
def Obligations.RecordsAreListedAndRead : Prop :=
  (∀ (e : Envelope) (site : Option Nat) (kind : Option RecordKind) (start : Nat) (s : State),
    Ready (.recordList e site kind start) s → e.lengthOk = true → s.parked = false →
      ∃ all : List DirEntry,
        all = s.store.dir.filter (fun d => (site.all (fun n => d.site == n)) && (kind.all (fun k => d.kind == k)) &&
          decide (start ≤ d.id)) ∧
        CarriedOut (.recordList e site kind start) e.tag 21
          (.records (all.take 48) (if 48 < all.length then (all.take 48).getLast?.map (fun d => d.id + 1) else none)) s
          (taken s)) ∧
  ∀ (e : Envelope) (id o : Nat) (s : State), Ready (.recordRead e id o) s → e.lengthOk = true → s.parked = false →
    (s.completeEntry id = none → TurnedAway (.recordRead e id o) e.tag 22 .notFound s) ∧
    (∀ d, s.completeEntry id = some d → s.store.readout.state ≠ .none →
      TurnedAway (.recordRead e id o) e.tag 22 .busy s) ∧
    (∀ d, s.completeEntry id = some d → s.store.readout.state = .none → d.length ≤ o →
      TurnedAway (.recordRead e id o) e.tag 22 .badParam s) ∧
    ∀ d, s.completeEntry id = some d → s.store.readout.state = .none → o < d.length → s.dport.reply.length < 8 →
      s.store.holder ≠ .none →
        ∃ t, exec (.recordRead e id o) s = .next t ∧ t.store.readout = ⟨.reading, true, id, o, o, [], []⟩ ∧
          t.store.dir = s.store.dir.map (fun x => if x.id = id then { x with holds := x.holds + 1 } else x) ∧
          t.dport = s.dport.placeReply (.reply ⟨e.tag, 22, .ok, false, .readout d.length o⟩) ∧
          Keeps [.readout, .directory, .dport] (taken s) t

/-- ERASE. RECORD_ERASE is judged in the order of R120, and when taken removes the entry, whose pages join the free-page list in
chain order. -/
def Obligations.ErasedRecordsFreeTheirPages : Prop :=
  ∀ (e : Envelope) (id : Nat) (s : State), Ready (.recordErase e id) s → e.lengthOk = true →
    (s.parked = true → TurnedAway (.recordErase e id) e.tag 23 .parked s) ∧
    (s.parked = false → s.entry id = none → TurnedAway (.recordErase e id) e.tag 23 .notFound s) ∧
    ∀ d, s.parked = false → s.entry id = some d →
      (s.store.readout.state ≠ .none → TurnedAway (.recordErase e id) e.tag 23 .busy s) ∧
      (s.store.readout.state = .none → d.state = .writing → TurnedAway (.recordErase e id) e.tag 23 .busy s) ∧
      (s.store.readout.state = .none → d.state = .complete → (d.pins ≠ 0 ∨ d.holds ≠ 0) →
        TurnedAway (.recordErase e id) e.tag 23 .pinned s) ∧
      (s.store.readout.state = .none → d.state = .complete → d.pins = 0 → d.holds = 0 →
        ∃ t, CarriedOut (.recordErase e id) e.tag 23 (.pagesFreed d.chain.length) s t ∧
          t.store.dir = s.store.dir.filter (fun x => x.id != id) ∧ t.store.free = s.store.free ++ d.chain ∧
          t.store.nextId = s.store.nextId ∧
          t.sites.registry = s.sites.registry.map
            (fun x => if x.id = d.site then { x with records := x.records - 1 } else x) ∧
          hasSource t.notices.requests 4 = storeLow t ∧
          Keeps [.directory, .registry, .notices, .dport] (taken s) t)

/-- WIPE. STORE_WIPE is judged in the order of R121, and when taken empties the directory and returns every chain to the
free-page list; STORE_CONFIG is taken while the store is idle alone, and clamps the low mark to 16..4096 (R115). -/
def Obligations.WipeAndConfigNeedAQuietStore : Prop :=
  (∀ (e : Envelope) (s : State), Ready (.storeWipe e) s → e.lengthOk = true → s.parked = false →
    ((s.openSite.isSome ∨ writerOpen s = true ∨ anyAdmitted s = true ∨ anyHeld s = true) →
      TurnedAway (.storeWipe e) e.tag 24 .busy s) ∧
    (s.openSite = none → writerOpen s = false → anyAdmitted s = false → anyHeld s = false →
      ((∃ d ∈ s.store.dir, d.pins ≠ 0) → TurnedAway (.storeWipe e) e.tag 24 .pinned s) ∧
      ((∀ d ∈ s.store.dir, d.pins = 0) →
        ∃ t, CarriedOut (.storeWipe e) e.tag 24 (.wiped s.store.dir.length) s t ∧ t.store.dir = [] ∧
          t.store.free = s.store.free ++ s.store.dir.flatMap (fun d => d.chain) ∧ t.store.nextId = s.store.nextId ∧
          t.sites.registry = s.sites.registry.map
            (fun x => { x with records := x.records - s.store.dir.countP (fun d => d.site == x.id) }) ∧
          Keeps [.directory, .registry, .notices, .dport] (taken s) t))) ∧
  ∀ (e : Envelope) (low : Nat) (qp qs : BitVec 4) (s : State), Ready (.storeConfig e low qp qs) s → e.lengthOk = true →
    s.parked = false →
      (storeIdle s = false → TurnedAway (.storeConfig e low qp qs) e.tag 25 .busy s) ∧
      (storeIdle s = true → ∃ t mark, (mark = if low < 16 then 16 else if 4096 < low then 4096 else low) ∧
        CarriedOut (.storeConfig e low qp qs) e.tag 25 (.settings mark qp.toNat qs.toNat) s t ∧
        (t.store.lowMark, t.store.qp, t.store.qs) = (mark, qp.toNat, qs.toNat) ∧
        hasSource t.notices.requests 4 = storeLow t ∧ Keeps [.settings, .notices, .dport] (taken s) t)

/-- PARK. PARK is judged in the order of R122 and does what R123 lists: every slot is EMPTY, every entry with a page in a bank
not kept is dropped with its pages freed and its LIVE links LOST, and the part is PARKED with its retention. RESUME is
taken while PARKED alone (R124). What the record memory reads above the kept banks is the model's choice: 0, as the
contents are lost (log 8). -/
def Obligations.ParkKeepsTheNamedBanks : Prop :=
  (∀ (e : Envelope) (ret : Option Retention) (s : State), Ready (.park e ret) s → e.lengthOk = true → s.parked = false →
    (ret = none → TurnedAway (.park e ret) e.tag 26 .badParam s) ∧
    (ret.isSome → s.openSite.isSome → TurnedAway (.park e ret) e.tag 26 .siteOpen s) ∧
    (ret.isSome → s.openSite = none →
      (s.print.jobs ≠ [] ∨ s.store.readout.state ≠ .none ∨ writerOpen s = true ∨ anyAdmitted s = true) →
        TurnedAway (.park e ret) e.tag 26 .busy s) ∧
    ∀ r, ret = some r → s.openSite = none → s.print.jobs = [] → s.store.readout.state = .none → writerOpen s = false →
      anyAdmitted s = false → (s.store.dir.map (fun d => d.id)).Nodup → (∀ i, (s.slot i).phase ≠ .ending) →
        ∃ t, CarriedOut (.park e ret) e.tag 26
            (.dropped (s.store.dir.countP (fun d => d.chain.any (fun p => decide (keptPages r ≤ p))))
              ((s.store.dir.filter (fun d => d.chain.any (fun p => decide (keptPages r ≤ p)))).flatMap
                (fun d => d.chain)).length) s t ∧
          t.store.parkState = .parked ∧ t.store.retention = some r ∧ t.instant = s.instant ∧
          t.store.dir = s.store.dir.filter (fun d => d.chain.all (fun p => decide (p < keptPages r))) ∧
          t.store.free = s.store.free ++
            (s.store.dir.filter (fun d => d.chain.any (fun p => decide (keptPages r ≤ p)))).flatMap (fun d => d.chain) ∧
          t.store.nextId = s.store.nextId ∧
          (∀ a, readByte t.store.mem a = if a < keptPages r * 1024 then readByte s.store.mem a else 0) ∧
          t.sites.notes = s.sites.notes.map (fun n =>
            { n with links := n.links.map (fun l =>
              if (s.store.dir.any (fun d => d.id == l.record && d.chain.any (fun p => decide (keptPages r ≤ p)))) = true
              then { l with status := .lost } else l) }) ∧
          (∀ i, (t.slot i).phase = .empty ∧ (t.slot i).ingress = [] ∧
            (t.slot i).passthrough = (s.slot i).passthrough) ∧
          t.session.control = [] ∧
          Keeps [.slots, .event, .uplink, .tracker, .detector, .episodes, .capture, .harmonic, .memory, .directory, .park,
            .registry, .notes, .print, .notices, .dport] (taken s) t) ∧
  ∀ (e : Envelope) (s : State), Ready (.resume e) s → e.lengthOk = true →
    (s.parked = false → TurnedAway (.resume e) e.tag 27 .busy s) ∧
    (s.parked = true → ∃ t, CarriedOut (.resume e) e.tag 27 .empty s t ∧ t.store.parkState = .active ∧
      t.store.retention = s.store.retention ∧ Keeps [.park] (taken s) t)

/-- FORCE. CAPTURE_FORCE is judged in the order of R76, and where the store has an id, and a place and a page beside the
reserve of 8, after reclaim if need be (R106, R109), it starts a MANUAL capture of 2n closes: its entry stands in WRITING on
the first free page under the next id. Where no entry is left to reclaim it is answered FULL, the entries reclaimed staying
removed. That the store refuses it, with FULL and before any reclaim, when no id is left beside those owed to admitted records
is the model's choice (log 19, log 48). -/
def Obligations.ForcedCapturesStartManual : Prop :=
  ∀ (e : Envelope) (slot n : Nat) (s : State), Ready (.captureForce e slot n) s → e.lengthOk = true →
    (s.parked = true → TurnedAway (.captureForce e slot n) e.tag 10 .parked s) ∧
    (s.parked = false → (4 ≤ slot ∨ n = 0 ∨ 64 < n) → TurnedAway (.captureForce e slot n) e.tag 10 .badParam s) ∧
    (s.parked = false → slot < 4 → 1 ≤ n → n ≤ 64 → s.openSite = none →
      TurnedAway (.captureForce e slot n) e.tag 10 .noSite s) ∧
    ∀ (i : Slot) (site : SiteEntry), s.parked = false → slot = i.val → 1 ≤ n → n ≤ 64 → s.openSite = some site →
      (s.isActive i = false → TurnedAway (.captureForce e slot n) e.tag 10 .noPod s) ∧
      (s.isActive i = true → ((s.cap i).phase ≠ .idle ∨ (s.cap i).pending.isSome) →
        TurnedAway (.captureForce e slot n) e.tag 10 .busy s) ∧
      (s.isActive i = true → (s.cap i).phase = .idle → (s.cap i).pending = none → idLeft s = false →
        TurnedAway (.captureForce e slot n) e.tag 10 .full s) ∧
      let a := requestAll placeFree (taken s)
      let b := requestAll (pagesAllowed 8 1) a.1
      let refused := fun (u : State) =>
        exec (.captureForce e slot n) s = .next (answer ⟨e.tag, 10, .full, false, .empty⟩ u)
      (placesUsed s < 1024 → 9 ≤ freeCount s → a = (taken s, true) ∧ b = (taken s, true)) ∧
      (s.isActive i = true → (s.cap i).phase = .idle → (s.cap i).pending = none → idLeft s = true →
        (a.2 = false → refused a.1) ∧ (a.2 = true → b.2 = false → refused b.1)) ∧
      ∀ p more, s.isActive i = true → (s.cap i).phase = .idle → (s.cap i).pending = none → idLeft s = true →
        a.2 = true → b.2 = true → unclaimed b.1 = p :: more → s.entry s.store.nextId = none →
          ∃ t, CarriedOut (.captureForce e slot n) e.tag 10 (.captureId s.store.nextId) s t ∧
            t.store.nextId = s.store.nextId + 1 ∧ t.store.free = b.1.store.free.erase p ∧
            t.entry s.store.nextId = some
              ⟨s.store.nextId, .capture, site.id, .writing, [p], 64, s.instant, s.clock.seconds, 0, 0, 0⟩ ∧
            (t.cap i).recordId = some s.store.nextId ∧ (t.cap i).flags.manual = true ∧
            (t.cap i).remaining = 2 * n ∧ (t.cap i).episodes = [] ∧ (t.cap i).kinds = (s.slot i).kinds ∧
            (t.cap i).phase = (if (t.cap i).flags.lean then .trend else .pre) ∧
            (t.cap i).flags.lean = storeLow t ∧ (t.cap i).ring = (s.cap i).ring ∧
            (t.cap i).readPos = (if (t.cap i).flags.lean then 0 else (s.cap i).oldest) ∧
            (∀ j, j ≠ i → t.cap j = s.cap j) ∧
            Keeps [.directory, .registry, .capture, .notices, .dport] (taken s) t

/-! ### Sites and notes -/

/-- SITES. SITE_OPEN and SITE_FORGET are judged in the order of R129 and R132; the site opened stands last in the registry with
its name taken in under R135, the site forgotten leaves it. SITE_LIST returns every entry, in every park state (R133). That
a refused SITE_OPEN with too long a name does not carry TRUNCATED is the model's choice (log 62). -/
def Obligations.SitesAreOpenedForgottenAndListed : Prop :=
  (∀ (e : Envelope) (id : Nat) (name : Text) (s : State), Ready (.siteOpen e id name) s → e.lengthOk = true →
    s.parked = false →
      ((id = 0 ∨ 65535 < id) → TurnedAway (.siteOpen e id name) e.tag 11 .badParam s) ∧
      (1 ≤ id → id ≤ 65535 → s.openSite.isSome → TurnedAway (.siteOpen e id name) e.tag 11 .siteOpen s) ∧
      (1 ≤ id → id ≤ 65535 → s.openSite = none → (s.site id).isSome →
        TurnedAway (.siteOpen e id name) e.tag 11 .badParam s) ∧
      (1 ≤ id → id ≤ 65535 → s.openSite = none → s.site id = none → 16 ≤ s.sites.registry.length →
        TurnedAway (.siteOpen e id name) e.tag 11 .full s) ∧
      (1 ≤ id → id ≤ 65535 → s.openSite = none → s.site id = none → s.sites.registry.length < 16 →
        ∃ t, exec (.siteOpen e id name) s =
            .next (answer ⟨e.tag, 11, .ok, decide (24 < name.length), .seconds s.clock.seconds⟩ t) ∧
          t.sites.registry = s.sites.registry ++
            [⟨id, (name.map (fun b => if 0x20 ≤ b.toNat ∧ b.toNat ≤ 0x7E then b else 0x3F#8)).take 24, .opened,
              s.clock.seconds, none, 0, 0, 0, 1, 1⟩] ∧
          Keeps [.registry] (taken s) t)) ∧
  (∀ (e : Envelope) (id : Nat) (s : State), Ready (.siteForget e id) s → e.lengthOk = true → s.parked = false →
    (s.site id = none → TurnedAway (.siteForget e id) e.tag 13 .notFound s) ∧
    ∀ x, s.site id = some x →
      ((x.state = .opened ∨ x.records ≠ 0 ∨ x.pending ≠ 0 ∨ x.notes ≠ 0 ∨ ∃ j ∈ s.print.jobs, j.site = id) →
        TurnedAway (.siteForget e id) e.tag 13 .busy s) ∧
      (x.state = .closed → x.records = 0 → x.pending = 0 → x.notes = 0 → (∀ j ∈ s.print.jobs, j.site ≠ id) →
        ∃ t, CarriedOut (.siteForget e id) e.tag 13 .empty s t ∧
          t.sites.registry = s.sites.registry.filter (fun y => y.id != id) ∧ Keeps [.registry] (taken s) t)) ∧
  ∀ (e : Envelope) (s : State), Ready (.siteList e) s → e.lengthOk = true →
    CarriedOut (.siteList e) e.tag 14 (.sites s.sites.registry) s (taken s)

/-- CLOSE. SITE_CLOSE is refused with no site OPEN; otherwise it cuts every capture that takes entries, the open episode and
the intervals, puts a staged pair in force and closes the site (R130). The open episode's record goes to the outbox with CUT, and
each event still open in it has CUT and leaves its channel NORMAL (R57); with the outbox full it is counted as lost (R54). The
ending interval is completed first and the current one goes to the outbox with CUT if a window of it has ended, both under their
site's next interval number (R96, R97). -/
def Obligations.SiteCloseCutsTheSurvey : Prop :=
  ∀ (e : Envelope) (s : State), Ready (.siteClose e) s → e.lengthOk = true → s.parked = false →
    (s.openSite = none → TurnedAway (.siteClose e) e.tag 12 .noSite s) ∧
    ∀ site, s.openSite = some site → RegistryOk s.sites.registry →
      (s.harmonic.current = none → ∀ w ∈ s.harmonic.schedule, w.interval = .ending) →
        ∃ t, CarriedOut (.siteClose e) e.tag 12 (.seconds s.clock.seconds) s t ∧
          t.openSite = none ∧
          (t.site site.id).map (fun x => (x.state, x.closed, x.name)) =
            some (.closed, some s.clock.seconds, site.name) ∧
          (∀ i, (t.cap i).pending = none ∧
            ((s.cap i).taking = true → (t.cap i).phase = .closing ∧ (t.cap i).flags.cut = true) ∧
            ((s.cap i).taking = false → (t.cap i).phase = (s.cap i).phase)) ∧
          t.episodes.current = none ∧
          (∀ ep, s.episodes.current = some ep →
            hasSource t.notices.requests 1 = true ∧
            (∀ c ∈ ep.openChannels, (t.chan c).event = none ∧
              ((s.chan c).event.isSome → (t.chan c).state = .normal)) ∧
            (4 ≤ s.episodes.outbox.length →
              t.episodes.outbox = s.episodes.outbox ∧ t.episodes.lost = bump s.episodes.lost) ∧
            (EventsOk s → s.episodes.outbox.length < 4 → ∃ r, t.episodes.outbox = s.episodes.outbox ++ [r] ∧
              (r.site, r.number, r.seconds, r.captureIds, r.flags) =
                (ep.site, ep.number, ep.seconds, ep.captureIds, { ep.flags with cut := true }) ∧
              r.events.length = ep.events.length ∧
              ∀ (k : Nat) (x v : EventEntry), ep.events[k]? = some (x, true) → x.chan ∈ ep.openChannels →
                (s.chan x.chan).event = some v → (s.chan x.chan).listed = true →
                  r.events[k]? = some { v with flags := { v.flags with cut := true } })) ∧
          (∀ v, s.harmonic.current = some v → s.harmonic.ending = none →
            (v.windows = 0 → t.harmonic.outbox = s.harmonic.outbox) ∧
            (v.windows ≠ 0 → s.harmonic.outbox.length < 2 →
              ∃ rec, t.harmonic.outbox = s.harmonic.outbox ++ [rec] ∧ rec.flags.cut = true ∧
                (rec.site, rec.windows, rec.start, rec.stop) = (v.site, v.windows, v.start, v.stop) ∧
                ∀ x, s.site v.site = some x → rec.number = x.nextInterval)) ∧
          (∀ w, s.harmonic.ending = some w → s.harmonic.outbox.length < 2 →
            ∃ rec, t.harmonic.outbox.take (s.harmonic.outbox.length + 1) = s.harmonic.outbox ++ [rec] ∧
              (rec.site, rec.windows, rec.start, rec.stop, rec.flags.cut) =
                (w.site, w.windows, w.start, w.stop, w.flags.cut) ∧
              (∀ x, s.site w.site = some x → rec.number = x.nextInterval) ∧
              (∀ v, s.harmonic.current = some v → v.windows ≠ 0 → s.harmonic.outbox = [] →
                ∃ last, t.harmonic.outbox = [rec, last] ∧ last.flags.cut = true ∧
                  (last.site, last.windows, last.start, last.stop) = (v.site, v.windows, v.start, v.stop))) ∧
          t.harmonic.schedule = [] ∧ t.harmonic.current = none ∧ t.harmonic.ending = none ∧
          t.harmonic.staged = none ∧
          (t.harmonic.bins, t.harmonic.params) = s.harmonic.staged.getD (s.harmonic.bins, s.harmonic.params) ∧
          Keeps [.detector, .port, .directory, .registry, .capture, .episodes, .harmonic, .notices, .dport] (taken s) t

/-- NOTES. NOTE_ADD and NOTE_LINK are judged in the order of R136 and R138; a note added has the next note id and one LIVE link
for each record, a link made stands last, and every link made pins its record (R110). That a refused NOTE_ADD with too long a
text does not carry TRUNCATED is the model's choice (log 62). -/
def Obligations.NotesAreAddedAndLinked : Prop :=
  (∀ (e : Envelope) (site : Nat) (tags : BitVec 32) (text : Text) (links : List Nat) (s : State),
    Ready (.noteAdd e site tags text links) s → e.lengthOk = true →
      (s.site site = none → TurnedAway (.noteAdd e site tags text links) e.tag 15 .notFound s) ∧
      ((s.site site).isSome → (4 < links.length ∨ ¬links.Nodup) →
        TurnedAway (.noteAdd e site tags text links) e.tag 15 .badParam s) ∧
      ((s.site site).isSome → links.length ≤ 4 → links.Nodup → 64 ≤ s.sites.notes.length →
        TurnedAway (.noteAdd e site tags text links) e.tag 15 .full s) ∧
      (∀ pre r post, (s.site site).isSome → links.length ≤ 4 → links.Nodup → s.sites.notes.length < 64 →
        links = pre ++ r :: post → (∀ x ∈ pre, ∃ d, s.completeEntry x = some d ∧ d.site = site) →
          (s.completeEntry r = none → TurnedAway (.noteAdd e site tags text links) e.tag 15 .notFound s) ∧
          ∀ d, s.completeEntry r = some d → d.site ≠ site →
            TurnedAway (.noteAdd e site tags text links) e.tag 15 .badParam s) ∧
      ((s.site site).isSome → links.length ≤ 4 → links.Nodup → s.sites.notes.length < 64 →
        (∀ x ∈ links, ∃ d, s.completeEntry x = some d ∧ d.site = site) →
          ∃ t n, n = (⟨s.sites.nextNote, site, s.clock.seconds, tags,
              (text.map (fun b => if 0x20 ≤ b.toNat ∧ b.toNat ≤ 0x7E then b else 0x3F#8)).take 160,
              links.map (fun r => ⟨r, .live⟩)⟩ : Note) ∧
            exec (.noteAdd e site tags text links) s =
              .next (answer ⟨e.tag, 15, .ok, decide (160 < text.length), .noteId s.sites.nextNote⟩ t) ∧
            t.sites.notes.Perm (n :: s.sites.notes) ∧
            t.store.dir = s.store.dir.map (fun d => if d.id ∈ links then { d with pins := d.pins + 1 } else d) ∧
            t.sites.registry = s.sites.registry.map
              (fun x => if x.id = site then { x with notes := x.notes + 1 } else x) ∧
            Keeps [.registry, .notes, .directory] (taken s) t)) ∧
  ∀ (e : Envelope) (note record : Nat) (s : State), Ready (.noteLink e note record) s → e.lengthOk = true →
    (s.note note = none → TurnedAway (.noteLink e note record) e.tag 16 .notFound s) ∧
    ∀ n, s.note note = some n →
      (4 ≤ n.links.length → TurnedAway (.noteLink e note record) e.tag 16 .full s) ∧
      (n.links.length < 4 → (∃ l ∈ n.links, l.record = record) →
        TurnedAway (.noteLink e note record) e.tag 16 .badParam s) ∧
      (n.links.length < 4 → (∀ l ∈ n.links, l.record ≠ record) → s.completeEntry record = none →
        TurnedAway (.noteLink e note record) e.tag 16 .notFound s) ∧
      ∀ d, n.links.length < 4 → (∀ l ∈ n.links, l.record ≠ record) → s.completeEntry record = some d →
        (d.site ≠ n.site → TurnedAway (.noteLink e note record) e.tag 16 .badParam s) ∧
        (d.site = n.site →
          ∃ t, CarriedOut (.noteLink e note record) e.tag 16 (.pinCount (d.pins + 1)) s t ∧
            t.sites.notes = s.sites.notes.map
              (fun x => if x.id = note then { x with links := x.links ++ [⟨record, .live⟩] } else x) ∧
            t.store.dir = s.store.dir.map (fun x => if x.id = record then { x with pins := x.pins + 1 } else x) ∧
            Keeps [.notes, .directory] (taken s) t)

/-- UNLINK. NOTE_UNLINK takes the link from its note and, for a LIVE one, its pin from the entry, whose new count it answers; a
LOST one changes no pin (R139). NOTE_DELETE takes the note with one pin for each of its LIVE links (R140). -/
def Obligations.UnlinkingAndDeletingTakePinsAway : Prop :=
  (∀ (e : Envelope) (note record : Nat) (s : State), Ready (.noteUnlink e note record) s → e.lengthOk = true →
    (s.note note = none → TurnedAway (.noteUnlink e note record) e.tag 17 .notFound s) ∧
    ∀ n, s.note note = some n →
      ((∀ l ∈ n.links, l.record ≠ record) → TurnedAway (.noteUnlink e note record) e.tag 17 .notFound s) ∧
      ∀ l, n.links.find? (fun x => x.record == record) = some l →
        (∀ d, l.status = .live → s.entry record = some d →
          ∃ t, CarriedOut (.noteUnlink e note record) e.tag 17 (.unlinked .live (some (d.pins - 1))) s t ∧
            t.sites.notes = s.sites.notes.map (fun x =>
              if x.id = note then { x with links := x.links.filter (fun y => y.record != record) } else x) ∧
            t.store.dir = s.store.dir.map (fun x => if x.id = record then { x with pins := x.pins - 1 } else x) ∧
            Keeps [.notes, .directory] (taken s) t) ∧
        (l.status = .lost →
          ∃ t, CarriedOut (.noteUnlink e note record) e.tag 17 (.unlinked .lost none) s t ∧
            t.sites.notes = s.sites.notes.map (fun x =>
              if x.id = note then { x with links := x.links.filter (fun y => y.record != record) } else x) ∧
            Keeps [.notes] (taken s) t)) ∧
  ∀ (e : Envelope) (note : Nat) (s : State), Ready (.noteDelete e note) s → e.lengthOk = true →
    (s.note note = none → TurnedAway (.noteDelete e note) e.tag 18 .notFound s) ∧
    ∀ n, s.note note = some n →
      ∃ t, CarriedOut (.noteDelete e note) e.tag 18 (.pinsRemoved n.live.length) s t ∧
        t.sites.notes = s.sites.notes.filter (fun x => x.id != note) ∧
        t.store.dir = s.store.dir.map
          (fun x => { x with pins := x.pins - n.live.countP (fun l => l.record == x.id) }) ∧
        t.sites.registry = s.sites.registry.map
          (fun x => if x.id = n.site then { x with notes := x.notes - 1 } else x) ∧
        Keeps [.registry, .notes, .directory] (taken s) t

/-- READ. NOTE_READ answers every field of a note with the kind of each LIVE link's entry, and changes nothing (R141);
NOTE_LIST gives up to 16 notes that match, ascending, and where to continue (R142). -/
def Obligations.NotesAreReadAsTheyStand : Prop :=
  (∀ (e : Envelope) (note : Nat) (s : State), Ready (.noteRead e note) s → e.lengthOk = true →
    (s.note note = none → TurnedAway (.noteRead e note) e.tag 19 .notFound s) ∧
    ∀ n, s.note note = some n →
      CarriedOut (.noteRead e note) e.tag 19
        (.note n (n.links.map (fun l =>
          if l.status = .live then (s.entry l.record).map (fun d => d.kind) else none))) s (taken s)) ∧
  ∀ (e : Envelope) (site : Option Nat) (filter : BitVec 32) (start : Nat) (s : State),
    Ready (.noteList e site filter start) s → e.lengthOk = true →
      ∃ all : List Note,
        all = s.sites.notes.filter (fun n => site.all (fun x => n.site == x) &&
          (filter == 0 || (filter &&& n.tags) != 0) && decide (start ≤ n.id)) ∧
        CarriedOut (.noteList e site filter start) e.tag 20
          (.notes ((all.take 16).map (fun n => ⟨n.id, n.site, n.created, n.tags, n.text.length,
              n.links.countP (fun l => l.status == .live), n.links.length - n.links.countP (fun l => l.status == .live)⟩))
            (if 16 < all.length then (all.take 16).getLast?.map (fun n => n.id + 1) else none)) s (taken s)

/-! ### Report printing -/

/-- JOBS. PRINT_SUBMIT is judged in the order of R149 and appends its job, ACTIVE at once at the head of an idle generator
(R150); PRINT_CANCEL removes a QUEUED job, ends a STALLED one, and leaves its reply to the engine for an ACTIVE one whose
row is being sent, which finishes the command (R163, R197), with the generator IDLE the cancel takes effect at once (R164);
PRINT_LIST answers the queue as it stands, with the paper and head lines as they read (R151); PAPER_FEED begins its feed while
the paper line reads PRESENT and ends it at once while it reads ABSENT (R165). That a command brings the levels of the lines
with it is the model's choice (log 9), and so are the feed rows that PRINT_LIST counts as left (log 35) and what it gives for
line and snapshot while a cancel feeds (log 50), in a HARMONIC_TABLE line (log 63), and with the composer FINISHED or no ACTIVE
job (log 64). -/
def Obligations.PrintCommandsActOnTheQueue : Prop :=
  (∀ (e : Envelope) (tpl site : Nat) (s : State), Ready (.printSubmit e tpl site) s → e.lengthOk = true →
    s.parked = false →
      (4 ≤ tpl → TurnedAway (.printSubmit e tpl site) e.tag 28 .badParam s) ∧
      ∀ k : Fin 4, tpl = k.val →
        (s.site site = none → TurnedAway (.printSubmit e tpl site) e.tag 28 .notFound s) ∧
        ((s.site site).isSome → s.print.templates.get k = [] →
          TurnedAway (.printSubmit e tpl site) e.tag 28 .badParam s) ∧
        ((s.site site).isSome → s.print.templates.get k ≠ [] → 8 ≤ s.print.jobs.length →
          TurnedAway (.printSubmit e tpl site) e.tag 28 .full s) ∧
        ((s.site site).isSome → s.print.templates.get k ≠ [] → s.print.jobs.length < 8 →
          (∀ j rest, s.print.jobs = j :: rest → j.state ≠ .queued →
            ∃ t, CarriedOut (.printSubmit e tpl site) e.tag 28 (.jobId s.print.nextJob) s t ∧
              t.print.jobs = s.print.jobs ++ [⟨s.print.nextJob, k, site, .queued, .none, 0⟩] ∧
              t.print.composer = s.print.composer ∧ Keeps [.print] (taken s) t) ∧
          (s.print.jobs = [] → s.print.gen.mode = .idle →
            ∃ t, CarriedOut (.printSubmit e tpl site) e.tag 28 (.jobId s.print.nextJob) s t ∧
              t.print.jobs = [⟨s.print.nextJob, k, site, .active, .none, 0⟩] ∧
              t.print.composer.state = .composing ∧ t.print.composer.line = 0 ∧ Keeps [.print] (taken s) t) ∧
          (s.print.jobs = [] → (s.print.gen.mode = .held ∨ s.print.gen.mode = .feed) →
            ∃ t, CarriedOut (.printSubmit e tpl site) e.tag 28 (.jobId s.print.nextJob) s t ∧
              t.print.jobs = [⟨s.print.nextJob, k, site, .queued, .none, 0⟩] ∧
              t.print.composer = s.print.composer ∧ Keeps [.print] (taken s) t))) ∧
  (∀ (e : PrinterEnvelope) (id : Nat) (s : State), Ready (.printCancel e id) s → e.lengthOk = true → s.parked = false →
    ((∀ j ∈ s.print.jobs, j.id ≠ id) → TurnedAway (.printCancel e id) e.tag 29 .notFound s) ∧
    ∀ j, s.print.jobs.find? (fun x => x.id == id) = some j →
      (j.cancel ≠ .none → TurnedAway (.printCancel e id) e.tag 29 .busy s) ∧
      (j.cancel = .none → j.state = .queued →
        ∃ t, CarriedOut (.printCancel e id) e.tag 29 (.cancelled id 0) s t ∧
          t.print.jobs.map (fun x => x.id) = (s.print.jobs.filter (fun x => x.id != id)).map (fun x => x.id) ∧
          t.print.finished.getLast? = some ⟨id, j.template, j.site, .cancelled, j.rows, .cancelledByCommand⟩ ∧
          hasSource t.notices.requests 9 = true) ∧
      ∀ rest, s.print.jobs = j :: rest → j.cancel = .none →
        (j.state = .stalled →
          ∃ t, CarriedOut (.printCancel e id) e.tag 29 (.cancelled id j.rows) s t ∧
            t.print.jobs.map (fun x => x.id) = rest.map (fun x => x.id) ∧
            t.print.finished.getLast? = some ⟨id, j.template, j.site, .cancelled, j.rows, .cancelledByCommand⟩ ∧
            hasSource t.notices.requests 9 = true) ∧
        (j.state = .active → s.print.gen.mode ≠ .idle →
          exec (.printCancel e id) s = .next (((taken s).setPrint
            { s.print with jobs := { j with cancel := .pending e.tag } :: rest }).setCmd (taken s).cmd.finish)) ∧
        (j.state = .active → s.print.gen.mode = .idle → s.store.burst = none → s.store.holder ≠ .none →
          s.dport.reply.length < 8 → e.paper = .present →
            ∃ t, exec (.printCancel e id) s = .next t ∧ t.print.jobs = { j with cancel := .feeding } :: rest ∧
              t.print.composer.state = .idle ∧ t.print.composer.snapshot = s.print.composer.held ∧
              (t.print.halfA, t.print.halfB) = (.free, .free) ∧
              t.print.gen = ⟨.feed, .a, 0, 56, .cancel, some ⟨s.print.timing, 1, false, false, false, false⟩⟩ ∧
              t.dport = s.dport.placeReply (.reply ⟨e.tag, 29, .ok, false, .cancelled id j.rows⟩) ∧
              t.cmd = (taken s).cmd.finish ∧ Keeps [.print, .dport, .cmd] s t)) ∧
  (∀ (e : PrinterEnvelope) (s : State), Ready (.printList e) s → e.lengthOk = true → s.parked = false →
    CarriedOut (.printList e) e.tag 30
      (.jobs s.print.jobs s.print.finished s.print.gen.mode e.paper e.head s.print.composer.line
        s.print.composer.snapshot.length (feedRows s.print.gen) s.print.underruns) s (taken s)) ∧
  ∀ (e : PrinterEnvelope) (n : Nat) (s : State), Ready (.paperFeed e n) s → e.lengthOk = true → s.parked = false →
    ((n = 0 ∨ 64 < n) → TurnedAway (.paperFeed e n) e.tag 31 .badParam s) ∧
    (1 ≤ n → n ≤ 64 → (s.print.gen.mode = .held ∨ s.print.gen.mode = .feed ∨ ∃ j ∈ s.print.jobs, j.state ≠ .queued) →
      TurnedAway (.paperFeed e n) e.tag 31 .busy s) ∧
    (1 ≤ n → n ≤ 64 → s.print.gen.mode ≠ .held → s.print.gen.mode ≠ .feed → (∀ j ∈ s.print.jobs, j.state = .queued) →
      (e.paper = .present →
        ∃ t, CarriedOut (.paperFeed e n) e.tag 31 .empty s t ∧
          t.print = { s.print with
            gen := ⟨.feed, .a, 0, n * 28, .paperFeed, some ⟨s.print.timing, 1, false, false, false, false⟩⟩
            dots := List.replicate 48 0, paper := .present } ∧
          Keeps [.print] (taken s) t) ∧
      (e.paper = .absent → s.print.jobs = [] →
        ∃ t, CarriedOut (.paperFeed e n) e.tag 31 .empty s t ∧
          t.print = { s.print with
            gen := ⟨if s.print.timing.lt = 1 then .held else .idle, .a, 0, 0, .paperFeed, none⟩, paper := .absent } ∧
          Keeps [.print] (taken s) t))

/-- LINE. What a band line's ticks do (R160, R161): the strobe is asserted at its start tick with the head line OK, and the
line is held with it HOT until it reads OK again; the strobe is released at its end tick; the step is given at its tick,
and alone for a feed line. That a strobe edge outside a band line changes nothing (log 1), that the level of the head line comes
with its row and is kept (log 9), and that the tick moves only to the ticks of the rows, which come in tick order (log 38), are
the model's choices. -/
def Obligations.TicksDriveTheStrobeAndTheMotor : Prop :=
  ∀ (x : Period) (s : State), s.print.gen.period = some x →
    (s.print.gen.mode = .band → x.strobed = false → x.headHold = false →
      (x.stepped = true ∨ x.timing.strobeStart ≤ x.timing.step) →
        exec (.strobeStart .ok) s = .next (s.setPrint { s.print with
          head := .ok, strobe := true
          gen := { s.print.gen with period := some { x with tick := x.timing.strobeStart, strobed := true } } }) ∧
        exec (.strobeStart .hot) s = .next (s.setPrint { s.print with
          head := .hot
          gen := { s.print.gen with period := some { x with tick := x.timing.strobeStart, headHold := true } } })) ∧
    (x.headHold = true →
      exec .headOk s = .next (s.setPrint { s.print with
        head := .ok, strobe := true
        gen := { s.print.gen with
          period := some { x with tick := x.timing.strobeStart, strobed := true, headHold := false } } })) ∧
    (x.headHold = false → exec .headOk s = .next (s.setPrint { s.print with head := .ok })) ∧
    (s.print.gen.mode = .band → x.strobed = true → x.released = false →
      (x.stepped = true ∨ x.timing.strobeEnd ≤ x.timing.step) →
        exec .strobeEnd s = .next (s.setPrint { s.print with
          strobe := false
          gen := { s.print.gen with period := some { x with tick := x.timing.strobeEnd, released := true } } })) ∧
    (x.stepped = false →
      (s.print.gen.mode ≠ .band ∨ ((x.strobed = true ∨ x.timing.step ≤ x.timing.strobeStart) ∧
        (x.released = true ∨ x.timing.step ≤ x.timing.strobeEnd))) →
        exec .motorStep s = .next (s.setPrint { s.print with
          gen := { s.print.gen with period := some { x with tick := x.timing.step, stepped := true } } })) ∧
    (s.print.gen.mode ≠ .band → ∀ h, exec (.strobeStart h) s = .next s ∧ exec .strobeEnd s = .next s)

/-- ROW. The end of a line's period and what comes of the row (R159, R160, R162, R164, R165): the next dot line begins while
the paper line reads PRESENT and the job STALLS while it reads ABSENT; the last line counts the row and frees its half; the
other half FULL begins, an unfinished composer is an underrun, a finished one ends the job DONE. A composer with a TEXT
line fills half A with the text padded to 32 characters (R146, R152). The port is taken, so no burst begins. That the level of
the paper line comes with the row at which it is read, and is kept, is the model's choice (log 9). -/
def Obligations.RowsLeaveTheBandInOrder : Prop :=
  (∀ (x : Period) (j : Job) (rest : List Job) (paper : Paper) (s : State),
    s.print.gen.period = some x → s.print.gen.mode = .band → x.stepped = true → x.released = true →
    s.print.jobs = j :: rest → s.store.holder ≠ .none → j.cancel = .none →
      (s.print.gen.line < 27 →
        (∃ t, exec (.printPeriodEnd .present) s = .next t ∧
          t.print.gen = { s.print.gen with
            line := s.print.gen.line + 1, period := some ⟨s.print.timing, 1, false, false, false, false⟩ } ∧
          t.print.dots = dotLine (s.print.half s.print.gen.half).row (s.print.gen.line + 1) ∧
          t.print.half s.print.gen.half = .sending (s.print.half s.print.gen.half).row ∧
          t.print.half s.print.gen.half.other = s.print.half s.print.gen.half.other ∧
          t.print.jobs = s.print.jobs ∧ Keeps [.print] s t) ∧
        ∃ t, exec (.printPeriodEnd .absent) s = .next t ∧ t.print.paper = .absent ∧ t.print.gen.period = none ∧
          t.print.jobs = { j with state := .stalled } :: rest ∧ hasSource t.notices.requests 8 = true ∧
          (t.print.halfA, t.print.halfB) = (s.print.halfA, s.print.halfB) ∧ Keeps [.print, .notices, .dport] s t) ∧
      (s.print.gen.line = 27 → j.rows < 65535 →
        (∀ text, s.print.half s.print.gen.half.other = .full text →
          ∃ t, exec (.printPeriodEnd .present) s = .next t ∧
            t.print.gen = ⟨.band, s.print.gen.half.other, 0, 0, .paperFeed,
              some ⟨s.print.timing, 1, false, false, false, false⟩⟩ ∧
            t.print.half s.print.gen.half = .free ∧ t.print.half s.print.gen.half.other = .sending text ∧
            t.print.dots = dotLine text 0 ∧ t.print.jobs = { j with rows := j.rows + 1 } :: rest ∧
            Keeps [.print] s t) ∧
        ((s.print.half s.print.gen.half.other).fullRow = none → s.print.composer.state ≠ .finished →
          ∃ t, exec (.printPeriodEnd paper) s = .next t ∧ t.print.gen.period = none ∧ t.print.gen.mode ≠ .band ∧
            t.print.half s.print.gen.half = .free ∧ t.print.underruns = bump s.print.underruns ∧
            t.print.jobs = { j with rows := j.rows + 1 } :: rest ∧ Keeps [.print] s t) ∧
        ((s.print.half s.print.gen.half.other).fullRow = none → s.print.composer.state = .finished →
          ∃ t, exec (.printPeriodEnd paper) s = .next t ∧ (t.print.halfA, t.print.halfB) = (.free, .free) ∧
            t.print.jobs.map (fun y => y.id) = rest.map (fun y => y.id) ∧
            t.print.finished.getLast? = some ⟨j.id, j.template, j.site, .done, j.rows + 1, .completed⟩ ∧
            hasSource t.notices.requests 9 = true ∧ Keeps [.print, .directory, .port, .notices, .dport] s t))) ∧
  (∀ (x : Period) (s : State), s.print.gen.period = some x → s.print.gen.mode = .feed → x.stepped = true →
    1 < s.print.gen.feedLeft → s.store.holder ≠ .none →
      exec (.printPeriodEnd .present) s = .next (s.setPrint { s.print with
        paper := .present, dots := List.replicate 48 0
        gen := { s.print.gen with
          feedLeft := s.print.gen.feedLeft - 1, period := some ⟨s.print.timing, 1, false, false, false, false⟩ } })) ∧
  (∀ (j : Job) (rest : List Job) (s : State), s.print.jobs = j :: rest → j.state = .stalled →
    ∃ t, exec .paperPresent s = .next t ∧ t.print.paper = .present ∧
      t.print.jobs = { j with state := .active } :: rest ∧
      t.print.gen = ⟨.band, s.print.gen.half, 0, 0, .paperFeed,
        some ⟨s.print.timing, 1, false, false, false, false⟩⟩ ∧
      t.print.dots = dotLine (s.print.half s.print.gen.half).row 0 ∧ hasSource t.notices.requests 8 = false ∧
      Keeps [.print, .notices, .dport] s t) ∧
  ∀ (j : Job) (rest : List Job) (text : Text) (paper : Paper) (s : State), s.print.jobs = j :: rest →
    s.print.composer.state = .composing → s.print.composer.read = .none → s.print.composer.snapshot = [] →
    s.print.composer.harmonic = none → s.print.halfA = .free → s.print.gen.mode ≠ .idle → s.store.holder ≠ .none →
    (s.print.templates.get j.template)[s.print.composer.line]? = some (.text text) →
      ∃ t, exec (.composerRow paper) s = .next t ∧ t.print.halfA = .full ((text ++ List.replicate 32 0x20#8).take 32) ∧
        t.print.halfB = s.print.halfB ∧
        (s.print.composer.line + 1 < (s.print.templates.get j.template).length →
          t.print.composer.state = .composing ∧ t.print.composer.line = s.print.composer.line + 1) ∧
        ((s.print.templates.get j.template).length ≤ s.print.composer.line + 1 → t.print.composer.state = .finished) ∧
        t.print.jobs = s.print.jobs ∧ t.print.gen = s.print.gen ∧ Keeps [.print] s t

/-! ### Notices -/

/-- OFFERS. Which sources are grantable and which of them is highest (R171, R172); how a change's offer is judged (R173) and
what becomes of it with the reply queue full (R174); NOTICE_MASK, NOTICE_MODE and NOTICE_POLLING (R179), after which the offer
is judged. A source in service that is masked stays in service. That a change under the offer waiting mark can only make the
offer state NONE is the model's choice (log 24), as are the moments at which a place counts as freed (log 39) and a retry at
any other moment that changes nothing (log 1). -/
def Obligations.OffersNameTheHighestGrantableSource : Prop :=
  (∀ (n : NoticeUnit) (k : Fin 12),
    (n.grantable k = true ↔ hasSource n.requests k = true ∧ hasSource n.masked k = false ∧
      (∀ x ∈ n.service, x.source ≠ k) ∧ (n.mode = .fixed → ∀ x ∈ n.service, k.val < x.source.val) ∧
      (n.mode = .rotating → n.service = [])) ∧
    (n.highest = some k ↔ n.grantable k = true ∧ ∀ j, n.grantable j = true →
      (n.mode = .fixed → k.val ≤ j.val) ∧
      (n.mode = .rotating → (k.val + 12 - n.base.val) % 12 ≤ (j.val + 12 - n.base.val) % 12)) ∧
    (n.highest = none ↔ ∀ j, n.grantable j = false)) ∧
  (∀ s : State, s.notices.polling = false → s.notices.waiting = false →
    (s.notices.highest = none → judgeOffer s = s.setNotices { s.notices with offered := none }) ∧
    ∀ g, s.notices.highest = some g →
      (s.notices.offered = some g → judgeOffer s = s) ∧
      (s.notices.offered ≠ some g → s.dport.reply.length < 8 →
        (judgeOffer s).notices = { s.notices with offered := some g } ∧
        (judgeOffer s).dport = s.dport.placeReply (.notice g s.notices.requests) ∧
        Keeps [.notices, .dport] s (judgeOffer s)) ∧
      (s.notices.offered ≠ some g → 8 ≤ s.dport.reply.length →
        (judgeOffer s).notices = { s.notices with waiting := true } ∧
        (judgeOffer s).dport = { s.dport with placeFreed := false } ∧ Keeps [.notices, .dport] s (judgeOffer s))) ∧
  (∀ s : State, (s.notices.polling = true → judgeOffer s = s) ∧
    (s.notices.polling = false → s.notices.waiting = true →
      (s.notices.highest = none → judgeOffer s = s.setNotices { s.notices with offered := none }) ∧
      (s.notices.highest ≠ none → judgeOffer s = s))) ∧
  (∀ s : State, s.notices.polling = false →
    (s.notices.waiting = true → s.dport.placeFreed = true → s.cmd.waiting = none → s.print.deferred = [] →
      ∃ t, exec .offerRetry s = .next t ∧ Keeps [.notices, .dport] s t ∧
        (s.dport.reply.length < 8 →
          t.notices = { s.notices with offered := s.notices.highest, waiting := false } ∧
            ∀ g, s.notices.highest = some g → s.notices.offered ≠ some g →
              t.dport = ({ s.dport with placeFreed := false } : DPort).placeReply (.notice g s.notices.requests)) ∧
        (8 ≤ s.dport.reply.length → s.notices.highest ≠ none → s.notices.highest ≠ s.notices.offered →
          t.notices = s.notices) ∧
        (s.notices.highest = none → t.notices = { s.notices with offered := none, waiting := false })) ∧
    ((s.notices.waiting = false ∨ s.cmd.waiting ≠ none ∨ s.print.deferred ≠ [] ∨ s.dport.placeFreed = false) →
      exec .offerRetry s = .next s)) ∧
  (∀ (e : Envelope) (m : BitVec 12) (s : State), Ready (.noticeMask e m) s → e.lengthOk = true →
    ∃ t, CarriedOut (.noticeMask e m) e.tag 35 (.mask m) s t ∧
      { t.notices with offered := s.notices.offered, waiting := s.notices.waiting } = { s.notices with masked := m } ∧
      (s.notices.polling = false → s.notices.waiting = false → s.dport.reply.length < 8 →
        t.notices.offered = t.notices.highest) ∧
      Keeps [.notices, .masks, .dport] (taken s) t) ∧
  (∀ (e : Envelope) (m : Option NoticeMode) (s : State), Ready (.noticeMode e m) s → e.lengthOk = true →
    (m = none → TurnedAway (.noticeMode e m) e.tag 36 .badParam s) ∧
    (m.isSome → s.notices.service ≠ [] → TurnedAway (.noticeMode e m) e.tag 36 .busy s) ∧
    ∀ x, m = some x → s.notices.service = [] →
      ∃ t, CarriedOut (.noticeMode e m) e.tag 36 (.mode x) s t ∧
        { t.notices with offered := s.notices.offered, waiting := s.notices.waiting } =
          { s.notices with mode := x, base := if x = .rotating then 0 else s.notices.base } ∧
        (s.notices.polling = false → s.notices.waiting = false → s.dport.reply.length < 8 →
          t.notices.offered = t.notices.highest) ∧
        Keeps [.notices, .masks, .dport] (taken s) t) ∧
  ∀ (e : Envelope) (on : Bool) (s : State), Ready (.noticePolling e on) s → e.lengthOk = true →
    ∃ t, CarriedOut (.noticePolling e on) e.tag 37 (.polling on) s t ∧
      (on = true → t = (taken s).setNotices { s.notices with polling := true, offered := none, waiting := false }) ∧
      (on = false →
        { t.notices with offered := s.notices.offered, waiting := s.notices.waiting } =
          { s.notices with polling := false } ∧
        (s.notices.waiting = false → s.dport.reply.length < 8 → t.notices.offered = t.notices.highest) ∧
        Keeps [.notices, .masks, .dport] (taken s) t)

/-- ACK. NOTICE_ACK and NOTICE_POLL take the highest grantable source, or answer NONE and change nothing (R175): an edge
source leaves the request set, the source enters service at the front, and source 7 picks the lowest slot with a sub-notice
and its highest code, for which POD_ACK is sent (R176). NOTICE_END takes a source out of service (R177), with POD_END when
the pod of an entry of source 7 is still there (R178). -/
def Obligations.NoticesAreAcknowledgedAndEnded : Prop :=
  (∀ (poll : Bool) (e : Envelope) (s : State),
    let c := if poll then Instr.noticePoll e else .noticeAck e
    let code : Byte := if poll then 33 else 32
    let body := fun (g : Option (Fin 12)) (p : Option (Slot × BitVec 48 × Nat)) (t : State) =>
      if poll then ReplyBody.polled g p t.notices.requests t.notices.masked t.notices.service else .acked g p
    Ready c s → e.lengthOk = true →
      (s.notices.highest = none → CarriedOut c e.tag code (body none none s) s (taken s)) ∧
      (∀ g, s.notices.highest = some g → g ≠ 7 →
        ∃ t, CarriedOut c e.tag code (body (some g) none t) s t ∧
          t.notices.service = ⟨g, none⟩ :: s.notices.service ∧
          (∀ k, hasSource t.notices.requests k =
            (hasSource s.notices.requests k && (k != g || g == 4 || g == 8))) ∧
          t.notices.base = s.notices.base ∧ Keeps [.notices, .dport] (taken s) t) ∧
      ∀ (i : Slot) (n : Nat), s.notices.highest = some 7 → n < 8 → (s.slot i).pendingSet.getLsbD n = true →
        (∀ j : Slot, j < i → (s.slot j).pendingSet = 0) →
        (∀ m, n < m → m < 8 → (s.slot i).pendingSet.getLsbD m = false) →
          ∃ t, CarriedOut c e.tag code (body (some 7) (some (i, (s.slot i).serial, n)) t) s t ∧
            t.notices.service = ⟨7, some (i, (s.slot i).serial, n)⟩ :: s.notices.service ∧
            t.notices.requests = s.notices.requests ∧ SentUp (.podAck i n) s t ∧
            Keeps [.uplink, .notices, .dport] (taken s) t) ∧
  ∀ (e : Envelope) (src : Option Nat) (s : State), Ready (.noticeEnd e src) s → e.lengthOk = true →
    (∀ k, src = some k → 12 ≤ k → TurnedAway (.noticeEnd e src) e.tag 34 .badParam s) ∧
    (∀ k, src = some k → k < 12 → (∀ x ∈ s.notices.service, x.source.val ≠ k) →
      TurnedAway (.noticeEnd e src) e.tag 34 .notFound s) ∧
    (src = none → s.notices.service = [] → TurnedAway (.noticeEnd e src) e.tag 34 .notFound s) ∧
    ∀ x, (s.notices.service.map (fun y => y.source)).Nodup →
      (src = some x.source.val ∧ x ∈ s.notices.service ∨ src = none ∧ s.notices.service.head? = some x) →
        ∃ t, CarriedOut (.noticeEnd e src) e.tag 34 (.ended x.source) s t ∧
          t.notices.service = s.notices.service.filter (fun y => y.source != x.source) ∧
          t.notices.requests = s.notices.requests ∧
          t.notices.base.val =
            (if s.notices.mode = .rotating then (x.source.val + 1) % 12 else s.notices.base.val) ∧
          (x.cascade = none → t.session = s.session) ∧
          (∀ i serial n, x.cascade = some (i, serial, n) →
            (s.isActive i = true ∧ (s.slot i).serial = serial → SentUp (.podEnd i n) s t) ∧
            (¬(s.isActive i = true ∧ (s.slot i).serial = serial) → t.session = s.session)) ∧
          Keeps [.uplink, .notices, .dport] (taken s) t

/-! ### The trunk ports and the command unit -/

/-- LINE. What the transmitters send next (R185, R192): downstream the passthrough frames, then the replies, then the periodic
records in frames of up to 512 bytes with the last flagged LAST (R188), then the record frames, and in HOLD the replies alone
(R190); upstream the frames in the order they were placed. The model's own are the mark that a reply frame begun has freed its
place (log 39), and that the end of a frame with none in flight changes nothing (log 1). -/
def Obligations.PortsSendInTheirOrder : Prop :=
  (∀ (f : DownFrame) (src : DownSource) (s : State),
    s.dport.inFlight = some (f, src) → s.dport.pendingHold = none →
      (∀ p rest, s.dport.hold = false → s.dport.passthrough = p :: rest →
        exec .dFrameEnd s = .next (s.setDport
          { s.dport with passthrough := rest, inFlight := some (.sample p, .passthrough) })) ∧
      (∀ r rest, (s.dport.hold = true ∨ s.dport.passthrough = []) → s.dport.reply = r :: rest →
        exec .dFrameEnd s = .next (s.setDport
          { s.dport with reply := rest, inFlight := some (r, .reply), placeFreed := true })) ∧
      (∀ c o, s.dport.hold = false → s.dport.passthrough = [] → s.dport.reply = [] →
        (s.dport.sendBuffer = some (c, o) →
          exec .dFrameEnd s = .next (s.setDport { s.dport with
            sendBuffer := if c.bytes.length ≤ o + 512 then none else some (c, o + 512)
            inFlight := some (.record ⟨c.id, o, decide (c.bytes.length ≤ o + 512), (c.bytes.drop o).take 512⟩,
              .periodic) })) ∧
        (∀ rest, s.dport.sendBuffer = none → s.dport.periodic = c :: rest →
          exec .dFrameEnd s = .next (s.setDport { s.dport with
            periodic := rest
            sendBuffer := if c.bytes.length ≤ 512 then none else some (c, 512)
            inFlight := some (.record ⟨c.id, 0, decide (c.bytes.length ≤ 512), c.bytes.take 512⟩, .periodic) }))) ∧
      (∀ r rest, s.dport.hold = false → s.dport.passthrough = [] → s.dport.reply = [] → s.dport.sendBuffer = none →
        s.dport.periodic = [] → s.dport.record = r :: rest →
          exec .dFrameEnd s = .next (s.setDport
            { s.dport with record := rest, inFlight := some (.record r, .record) })) ∧
      (s.dport.reply = [] → (s.dport.hold = true ∨ s.dport.passthrough = [] ∧ s.dport.sendBuffer = none ∧
        s.dport.periodic = [] ∧ s.dport.record = []) →
          exec .dFrameEnd s = .next (s.setDport { s.dport with inFlight := none }))) ∧
  (∀ s : State, s.dport.inFlight = none → exec .dFrameEnd s = .next s) ∧
  (∀ (f : UpFrame) (s : State), s.session.upInFlight = some f →
    exec .uFrameEnd s = .next (s.setSession
      { s.session with upInFlight := s.session.up.head?, up := s.session.up.tail })) ∧
  ∀ s : State, s.session.upInFlight = none → exec .uFrameEnd s = .next s

/-- REPLY. Where a reply goes (R187, R197): into the reply queue of 8, or it waits in the command unit until a place is free,
and so does a deferred reply of the print engine, after it (R163). HOLD is answered at once with nothing in flight, and
otherwise as the frame in flight ends (R190); RELEASE lets the transmitter choose again (R191). A command is finished as its
reply is placed, and the head of the queue leaves it to be run (R196, R197). When a place counts as freed is the model's
choice (log 39), and so is a placing row at any other moment, which changes nothing (log 1). -/
def Obligations.RepliesWaitForAPlace : Prop :=
  (∀ (r : Reply) (s : State),
    (s.dport.reply.length < 8 →
      answer r s = (s.setCmd s.cmd.finish).setDport (s.dport.placeReply (.reply r))) ∧
    (8 ≤ s.dport.reply.length → answer r s =
      (s.setCmd { s.cmd with waiting := some r, running := some (r.tag, r.code) }).setDport
        { s.dport with placeFreed := false })) ∧
  (∀ c : CommandUnit,
    (c.finish.running, c.finish.waiting, c.finish.overflows) = (none, none, c.overflows) ∧
    (∀ d rest, c.next = none → c.queue = d :: rest → (c.finish.next, c.finish.queue) = (some d, rest)) ∧
    ((c.next ≠ none ∨ c.queue = []) → (c.finish.next, c.finish.queue) = (c.next, c.queue))) ∧
  (∀ (d : DPort) (f : DownFrame), d.inFlight.isSome → d.placeReply f = { d with reply := d.reply ++ [f] }) ∧
  (∀ (r : Reply) (s : State), s.cmd.waiting = some r →
    (8 ≤ s.dport.reply.length → exec .replyPlace s = .next s) ∧
    (s.dport.reply.length < 8 → (∀ n o, r.body ≠ .readout n o) →
      exec .replyPlace s = .next ((s.setCmd s.cmd.finish).setDport
        (({ s.dport with placeFreed := false } : DPort).placeReply (.reply r)))) ∧
    (s.dport.reply.length < 8 → (∃ n o, r.body = .readout n o) → s.store.holder ≠ .none →
      ∃ t, exec .replyPlace s = .next t ∧ t.store.readout = { s.store.readout with asking := true } ∧
        t.cmd = s.cmd.finish ∧
        t.dport = ({ s.dport with placeFreed := false } : DPort).placeReply (.reply r) ∧
        Keeps [.readout, .dport, .cmd] s t)) ∧
  (∀ (r : Reply) (rest : List Reply) (s : State), s.print.deferred = r :: rest →
    ((8 ≤ s.dport.reply.length ∨ s.cmd.waiting ≠ none) → exec .deferredReplyPlace s = .next s) ∧
    (s.dport.reply.length < 8 → s.cmd.waiting = none →
      exec .deferredReplyPlace s = .next ((s.setPrint { s.print with deferred := rest }).setDport
        (({ s.dport with placeFreed := false } : DPort).placeReply (.reply r))))) ∧
  (∀ (e : Envelope) (s : State), Ready (.hold e) s → e.lengthOk = true →
    (s.dport.inFlight = none →
      CarriedOut (.hold e) e.tag 6 .empty s ((taken s).setDport { s.dport with hold := true })) ∧
    (s.dport.inFlight ≠ none → exec (.hold e) s = .next
      (((taken s).setDport
        { s.dport with hold := true, pendingHold := some ⟨e.tag, 6, .ok, false, .empty⟩ }).setCmd
          { s.cmd with next := none, running := some (e.tag, 6) }))) ∧
  (∀ (f : DownFrame) (src : DownSource) (r : Reply) (s : State),
    s.dport.inFlight = some (f, src) → s.dport.pendingHold = some r →
      (8 ≤ s.dport.reply.length →
        ∃ t, exec .dFrameEnd s = .next t ∧ t.cmd = { s.cmd with waiting := some r } ∧ t.dport.pendingHold = none ∧
          Keeps [.dport, .cmd] s t) ∧
      (s.dport.reply.length < 8 → s.dport.hold = true → ∀ g rest, s.dport.reply ++ [.reply r] = g :: rest →
        exec .dFrameEnd s = .next ((s.setDport
          { s.dport with
            reply := rest, inFlight := some (g, .reply), pendingHold := none, placeFreed := true }).setCmd
          s.cmd.finish))) ∧
  ∀ (e : Envelope) (s : State), Ready (.release e) s → e.lengthOk = true →
    ∃ t, CarriedOut (.release e) e.tag 7 .empty s t ∧ t.dport.hold = false ∧
      (s.dport.inFlight ≠ none → t.dport = { s.dport with hold := false }) ∧
      (s.dport.inFlight = none → (∀ p rest, s.dport.passthrough = p :: rest →
        t.dport = { s.dport with hold := false, passthrough := rest, inFlight := some (.sample p, .passthrough) }) ∧
        (∀ r rest, s.dport.passthrough = [] → s.dport.reply = r :: rest →
          t.dport = { s.dport with hold := false, reply := rest, inFlight := some (r, .reply), placeFreed := true }) ∧
        (∀ c o, s.dport.passthrough = [] → s.dport.reply = [] → s.dport.sendBuffer = some (c, o) →
          t.dport = { s.dport with
            hold := false
            sendBuffer := if c.bytes.length ≤ o + 512 then none else some (c, o + 512)
            inFlight := some (.record ⟨c.id, o, decide (c.bytes.length ≤ o + 512), (c.bytes.drop o).take 512⟩,
              .periodic) }) ∧
        (∀ c rest, s.dport.passthrough = [] → s.dport.reply = [] → s.dport.sendBuffer = none →
          s.dport.periodic = c :: rest →
            t.dport = { s.dport with
              hold := false, periodic := rest
              sendBuffer := if c.bytes.length ≤ 512 then none else some (c, 512)
              inFlight := some (.record ⟨c.id, 0, decide (c.bytes.length ≤ 512), c.bytes.take 512⟩, .periodic) }) ∧
        (∀ r rest, s.dport.passthrough = [] → s.dport.reply = [] → s.dport.sendBuffer = none →
          s.dport.periodic = [] → s.dport.record = r :: rest →
            t.dport = { s.dport with hold := false, record := rest, inFlight := some (.record r, .record) }) ∧
        (s.dport.passthrough = [] → s.dport.reply = [] → s.dport.sendBuffer = none → s.dport.periodic = [] →
          s.dport.record = [] → t.dport = { s.dport with hold := false })) ∧
      Keeps [.dport, .hold] (taken s) t

/-- ARRIVAL. A COMMAND frame leaves for its run at once when nothing runs and none waits before it, and otherwise joins the
command queue of 4, or is dropped and counted with COMMAND_OVERFLOW raised (R196). The frame holds its command without the
levels that the command's row brings, and its run is a row of its own: the model's choices (log 9, log 2). An unknown command
code is answered UNKNOWN in every park state (R195). A command for a slot is forwarded under the tests of
R11, its tag and body unchanged in a POD_COMMAND. -/
def Obligations.CommandsArriveAndAreForwarded : Prop :=
  (∀ (c : Instr) (s : State), isCommand c = true →
    (s.cmd.running = none → s.cmd.waiting = none → s.cmd.next = none → s.cmd.queue = [] →
      exec (.command c) s = .next (s.setCmd { s.cmd with next := some (asSent c) })) ∧
    ((s.cmd.running ≠ none ∨ s.cmd.waiting ≠ none ∨ s.cmd.next ≠ none ∨ s.cmd.queue ≠ []) → s.cmd.queue.length < 4 →
      exec (.command c) s = .next (s.setCmd { s.cmd with queue := s.cmd.queue ++ [asSent c] })) ∧
    (4 ≤ s.cmd.queue.length →
      ∃ t, exec (.command c) s = .next t ∧ t.cmd = { s.cmd with overflows := bump s.cmd.overflows } ∧ Raised 11 s t ∧
        Keeps [.cmd, .notices, .dport] s t)) ∧
  (∀ (tag : BitVec 16) (code : Byte) (s : State), (code.toNat = 0 ∨ 37 < code.toNat) →
    Ready (.unknownCommand tag code) s → TurnedAway (.unknownCommand tag code) tag code .unknown s) ∧
  ∀ (tag : BitVec 16) (target code : Byte) (body : List Byte) (s : State),
    Ready (.forwardedCommand tag target code body) s →
      (4 ≤ target.toNat → target.toNat ≠ 255 →
        TurnedAway (.forwardedCommand tag target code body) tag code .badParam s) ∧
      ∀ i : Slot, target.toNat = i.val → s.parked = false →
        (64 < body.length → TurnedAway (.forwardedCommand tag target code body) tag code .badParam s) ∧
        (body.length ≤ 64 → (s.slot i).phase ≠ .active →
          TurnedAway (.forwardedCommand tag target code body) tag code .noPod s) ∧
        (body.length ≤ 64 → (s.slot i).phase = .active → 8 ≤ s.session.up.length →
          TurnedAway (.forwardedCommand tag target code body) tag code .busy s) ∧
        (body.length ≤ 64 → (s.slot i).phase = .active → s.session.up.length < 8 →
          ∃ t, CarriedOut (.forwardedCommand tag target code body) tag code .empty s t ∧
            SentUp (.podCommand i tag body) s t ∧ Keeps [.uplink] (taken s) t)

/-! ### Tables -/

/-- LOADS. A TABLE_LOAD whose table, run or count fails the common tests is refused with BAD_PARAM (R198). SURVEY, REFERENCE,
THRESHOLD and CAPTURE: the first entry of the run that fails is named by BAD_TABLE, the state tests refuse with BUSY, and a
load that passes takes effect as R199, R30, R41 and R61 state. -/
def Obligations.SurveyToCaptureTablesAreLoaded : Prop :=
  (∀ (c : Instr) (h : LoadHead) (size given : Nat) (s : State),
    loadShape c = some (h, size, given) → Ready c s → h.lengthOk = true →
      (h.tableKnown = false → TurnedAway c h.tag 1 .badParam s) ∧
      (h.tableKnown = true → s.parked = false → (h.count = 0 ∨ size < h.first + h.count ∨ given ≠ h.count) →
        TurnedAway c h.tag 1 .badParam s)) ∧
  (∀ (h : LoadHead) (x : SurveyEntry) (s : State), RunTaken (.tableLoadSurvey h [x]) h 1 1 s →
    ((x.fNom ≠ 50 ∧ x.fNom ≠ 60 ∨ 2047 < x.h) → RefusedAt (.tableLoadSurvey h [x]) h 0 s) ∧
    ((x.fNom = 50 ∨ x.fNom = 60) → x.h ≤ 2047 →
      (x.fNom ≠ s.survey.fNom → ((∃ i, (s.slot i).phase ≠ .empty) ∨ s.openSite.isSome) →
        TurnedAway (.tableLoadSurvey h [x]) h.tag 1 .busy s) ∧
      ((x.fNom = s.survey.fNom ∨ (∀ i, (s.slot i).phase = .empty) ∧ s.openSite = none) →
        CarriedOut (.tableLoadSurvey h [x]) h.tag 1 .empty s ((taken s).setSurvey x)))) ∧
  (∀ (h : LoadHead) (xs : List (Option Nat)) (s : State), RunTaken (.tableLoadReference h xs) h 4 xs.length s →
    let good := fun (k : Nat) => ∀ c, xs[k]? = some (some c) → c < 16 ∧
      (∀ j : Fin 4, (j.val < h.first ∨ h.first + h.count ≤ j.val) → s.tracker.table.get j ≠ some c) ∧
      ∀ m < k, xs[m]? ≠ some (some c)
    (∀ k < h.count, (∀ m < k, good m) → ¬good k → RefusedAt (.tableLoadReference h xs) h (h.first + k) s) ∧
    ((∀ k < h.count, good k) →
      ∃ t, CarriedOut (.tableLoadReference h xs) h.tag 1 .empty s t ∧
        (∀ j : Fin 4, t.tracker.table.get j =
          if h.first ≤ j.val ∧ j.val < h.first + h.count then xs.getD (j.val - h.first) none
          else s.tracker.table.get j) ∧
        t.tracker.mode = .free ∧ t.tracker.reference = t.tracker.candidates.find? (qualifies s) ∧
        t.tracker.handoverCount = (s.tracker.handoverCount + 1) % 2 ^ 32 ∧
        t.tracker.change.map (fun c => (c.reason, c.previous, c.next)) =
          some (.reload, s.tracker.reference, t.tracker.reference) ∧
        hasSource t.notices.requests 5 = true ∧
        Keeps [.reference, .tracker, .harmonic, .registry, .notices, .dport] (taken s) t)) ∧
  (∀ (h : LoadHead) (xs : List ThresholdEntry) (s : State), RunTaken (.tableLoadThreshold h xs) h 16 xs.length s →
    let good := fun (x : ThresholdEntry) =>
      x.nc ≤ 32767 ∧ 100 ≤ x.ts ∧ x.ts ≤ 999 ∧ 10 ≤ x.ti ∧ x.ti + 1 ≤ x.ts ∧ 1001 ≤ x.tw ∧ x.tw ≤ 2000 ∧
        x.hy ≤ 100 ∧ x.ts + x.hy ≤ 1000 ∧ 1000 + x.hy ≤ x.tw ∧ x.ti + x.hy ≤ x.ts ∧ (x.watch = true → 1 ≤ x.nc)
    (∀ pre x post, xs = pre ++ x :: post → (∀ y ∈ pre, good y) → ¬good x →
      RefusedAt (.tableLoadThreshold h xs) h (h.first + pre.length) s) ∧
    ((∀ x ∈ xs, good x) →
      ∃ t, CarriedOut (.tableLoadThreshold h xs) h.tag 1 .empty s t ∧
        (∀ c : Chan, ∀ x, h.first ≤ c.val → xs[c.val - h.first]? = some x →
          (s.isActive c.slot = true → t.chan c =
            { s.chan c with staged := some x, pendingUnwatched := !x.watch && (s.chan c).event.isSome }) ∧
          (s.isActive c.slot = false → (t.chan c).inForce = x ∧ (t.chan c).staged = none ∧
            (t.chan c).held = (s.chan c).held ∧ (t.chan c).event = none)) ∧
        (∀ c : Chan, (c.val < h.first ∨ h.first + h.count ≤ c.val) → t.chan c = s.chan c) ∧
        Keeps [.detector, .tracker, .notices, .dport] (taken s) t)) ∧
  ∀ (h : LoadHead) (xs : List CaptureEntry) (s : State), RunTaken (.tableLoadCapture h xs) h 4 xs.length s →
    let good := fun (x : CaptureEntry) =>
      (x.pre = 1 ∨ x.pre = 2 ∨ x.pre = 4 ∨ x.pre = 8) ∧ 1 ≤ x.post ∧ x.post ≤ 16
    (∀ pre x post, xs = pre ++ x :: post → (∀ y ∈ pre, good y) → ¬good x →
      RefusedAt (.tableLoadCapture h xs) h (h.first + pre.length) s) ∧
    ((∀ x ∈ xs, good x) →
      ((∃ i : Slot, h.first ≤ i.val ∧ i.val < h.first + h.count ∧ (s.cap i).phase ≠ .idle) →
        TurnedAway (.tableLoadCapture h xs) h.tag 1 .busy s) ∧
      ((∀ i : Slot, h.first ≤ i.val → i.val < h.first + h.count → (s.cap i).phase = .idle) →
        ∃ t, CarriedOut (.tableLoadCapture h xs) h.tag 1 .empty s t ∧
          (∀ (i : Slot) (x : CaptureEntry), h.first ≤ i.val → xs[i.val - h.first]? = some x →
            (x.pre = (s.cap i).entry.pre → t.cap i = { s.cap i with entry := x }) ∧
            (x.pre ≠ (s.cap i).entry.pre → t.cap i = { s.cap i with entry := x, ring := [], ringWrite := 0 })) ∧
          (∀ i : Slot, (i.val < h.first ∨ h.first + h.count ≤ i.val) → t.cap i = s.cap i) ∧
          Keeps [.capture] (taken s) t))

/-- LOADS. BIN is checked as it would stand after the load (R80) and HARMONIC entry by entry (R81), both over the staged pair
or the tables in force, and take effect at once with no site OPEN or are staged (R82). TEMPLATE is refused with BUSY while a
job names a template of the run (R145). PRINT_TIMING sets the generator going or holds it (R147), with a QUEUED job at the head,
one under way or none: a job under way ends FAILED, a pending cancel of it being answered (R163), and a period or a feed in
progress ends. L_t loaded as 1 ends a period in progress at once (log 20), and a strobe or step field out of 1..4095 fails the entry beside any L_t (log 56): the model's
choices. -/
def Obligations.BinToTimingTablesAreLoaded : Prop :=
  (∀ (h : LoadHead) (xs : List (Option Nat)) (s : State), RunTaken (.tableLoadBin h xs) h 24 xs.length s →
    let pair := s.harmonic.staged.getD (s.harmonic.bins, s.harmonic.params)
    let table := pair.1.take h.first ++ xs ++ pair.1.drop (h.first + h.count)
    let good := fun (p : Nat) =>
      (p = 0 → table[p]? = some (some 1)) ∧
      (∀ k, table[p]? = some (some k) →
        (h.first ≤ p → p < h.first + h.count → 1 ≤ k ∧ k ≤ 63) ∧
        (0 < p → (∀ m < p, ∃ j, table[m]? = some (some j)) ∧ ∀ j, table[p - 1]? = some (some j) → j < k))
    (∀ p < table.length, (∀ m < p, good m) → ¬good p → RefusedAt (.tableLoadBin h xs) h p s) ∧
    ((∀ p < table.length, good p) →
      (s.openSite.isSome → CarriedOut (.tableLoadBin h xs) h.tag 1 .empty s
        ((taken s).setHarmonic { s.harmonic with staged := some (table, pair.2) })) ∧
      (s.openSite = none → CarriedOut (.tableLoadBin h xs) h.tag 1 .empty s
        ((taken s).setHarmonic { s.harmonic with bins := table, params := pair.2, staged := none })))) ∧
  (∀ (h : LoadHead) (xs : List HarmonicEntry) (s : State), RunTaken (.tableLoadHarmonic h xs) h 17 xs.length s →
    let pair := s.harmonic.staged.getD (s.harmonic.bins, s.harmonic.params)
    (∀ x, h.first + h.count = 17 → xs.getLast? = some x → (x.m = 0 ∨ 255 < x.m) →
      RefusedAt (.tableLoadHarmonic h xs) h 16 s) ∧
    (pair.2.watch.length = 16 →
      (∀ x, h.first + h.count = 17 → xs.getLast? = some x → 1 ≤ x.m ∧ x.m ≤ 255) →
        ∃ p : HarmonicParams, p.watch.length = 16 ∧
          (∀ j < 16, p.watch[j]? =
            if h.first ≤ j ∧ j < h.first + h.count then (xs[j - h.first]?).map (fun x => x.flag)
            else pair.2.watch[j]?) ∧
          (h.first + h.count = 17 → (xs.getLast?).map (fun x => (x.m, x.flag)) = some (p.m, p.exclude)) ∧
          (h.first + h.count < 17 → (p.m, p.exclude) = (pair.2.m, pair.2.exclude)) ∧
          (s.openSite.isSome → CarriedOut (.tableLoadHarmonic h xs) h.tag 1 .empty s
            ((taken s).setHarmonic { s.harmonic with staged := some (pair.1, p) })) ∧
          (s.openSite = none → CarriedOut (.tableLoadHarmonic h xs) h.tag 1 .empty s
            ((taken s).setHarmonic { s.harmonic with bins := pair.1, params := p, staged := none })))) ∧
  (∀ (h : LoadHead) (xs : List (List TemplateLine)) (s : State), RunTaken (.tableLoadTemplate h xs) h 4 xs.length s →
    let good := fun (x : List TemplateLine) => x.length ≤ 32 ∧
      (∀ t, .text t ∈ x → t.length ≤ 32) ∧
      (∀ d r, .episodeList d r ∈ x → d ≤ 65535 ∧ 1 ≤ r ∧ r ≤ 64) ∧
      (∀ c, .harmonicTable c ∈ x → c < 16) ∧ (∀ n, .feed n ∈ x → 1 ≤ n ∧ n ≤ 8) ∧ ∀ k, .unknown k ∉ x
    let asTaken := fun (l : TemplateLine) => match l with
      | .text t => TemplateLine.text (t.map (fun b => if 0x20 ≤ b.toNat ∧ b.toNat ≤ 0x7E then b else 0x3F#8))
      | l => l
    (∀ pre x post, xs = pre ++ x :: post → (∀ y ∈ pre, good y) → ¬good x →
      RefusedAt (.tableLoadTemplate h xs) h (h.first + pre.length) s) ∧
    ((∀ x ∈ xs, good x) →
      ((∃ j ∈ s.print.jobs, h.first ≤ j.template.val ∧ j.template.val < h.first + h.count) →
        TurnedAway (.tableLoadTemplate h xs) h.tag 1 .busy s) ∧
      ((∀ j ∈ s.print.jobs, j.template.val < h.first ∨ h.first + h.count ≤ j.template.val) →
        ∃ t, CarriedOut (.tableLoadTemplate h xs) h.tag 1 .empty s t ∧
          (∀ (i : Fin 4) (x : List TemplateLine), h.first ≤ i.val → xs[i.val - h.first]? = some x →
            t.print.templates.get i = x.map asTaken) ∧
          (∀ i : Fin 4, (i.val < h.first ∨ h.first + h.count ≤ i.val) →
            t.print.templates.get i = s.print.templates.get i) ∧
          Keeps [.templates] (taken s) t))) ∧
  ∀ (h : LoadHead) (x : TimingEntry) (s : State), RunTaken (.tableLoadPrintTiming h [x]) h 1 1 s →
    s.store.holder ≠ .none →
      let inRange := fun (n : Nat) => 1 ≤ n ∧ n ≤ 4095
      let good := inRange x.lt ∧ inRange x.strobeStart ∧ inRange x.strobeEnd ∧ inRange x.step ∧
        (x.lt = 1 ∨ 1 < x.strobeStart ∧ x.strobeStart < x.strobeEnd ∧ x.strobeEnd ≤ x.lt ∧ 1 < x.step ∧ x.step ≤ x.lt)
      (¬good → RefusedAt (.tableLoadPrintTiming h [x]) h 0 s) ∧
      (good →
        (((x.lt = 1 ∧ s.print.timing.lt = 1) ∨ (x.lt ≠ 1 ∧ s.print.timing.lt ≠ 1)) →
          CarriedOut (.tableLoadPrintTiming h [x]) h.tag 1 .empty s ((taken s).setPrint { s.print with timing := x })) ∧
        (x.lt ≠ 1 → s.print.timing.lt = 1 → ∀ j rest, s.print.jobs = j :: rest → j.state = .queued →
          ∃ t, CarriedOut (.tableLoadPrintTiming h [x]) h.tag 1 .empty s t ∧ t.print.timing = x ∧
            t.print.gen.mode = .idle ∧ t.print.jobs = { j with state := .active } :: rest ∧
            t.print.composer.state = .composing ∧ Keeps [.print, .timing] (taken s) t) ∧
        (x.lt ≠ 1 → s.print.timing.lt = 1 → (∀ j ∈ s.print.jobs.take 1, j.state ≠ .queued) →
          CarriedOut (.tableLoadPrintTiming h [x]) h.tag 1 .empty s ((taken s).setPrint
            { s.print with timing := x, gen := ⟨.idle, .a, 0, 0, .paperFeed, none⟩ })) ∧
        (x.lt = 1 → s.print.timing.lt ≠ 1 → (∀ j ∈ s.print.jobs.take 1, j.state = .queued) →
          CarriedOut (.tableLoadPrintTiming h [x]) h.tag 1 .empty s ((taken s).setPrint
            { s.print with timing := x, gen := ⟨.held, .a, 0, 0, .paperFeed, none⟩, strobe := false })) ∧
        (x.lt = 1 → s.print.timing.lt ≠ 1 → ∀ j rest, s.print.jobs = j :: rest → j.state ≠ .queued →
          ∃ t, CarriedOut (.tableLoadPrintTiming h [x]) h.tag 1 .empty s t ∧ t.print.timing = x ∧
            t.print.gen.mode = .held ∧ t.print.gen.period = none ∧ t.print.strobe = false ∧
            (t.print.halfA, t.print.halfB) = (.free, .free) ∧
            t.print.jobs.map (fun y => y.id) = rest.map (fun y => y.id) ∧
            t.print.finished.getLast? = some ⟨j.id, j.template, j.site, .failed, j.rows, .timingWithdrawn⟩ ∧
            hasSource t.notices.requests 9 = true ∧
            ((∀ tag, j.cancel ≠ .pending tag) → t.print.deferred = s.print.deferred) ∧
            (∀ tag, j.cancel = .pending tag →
              let reply : Reply := ⟨tag, 29, .ok, false, .cancelled j.id j.rows⟩
              let sent := s.dport.placeReply (.reply reply)
              (s.dport.reply.length < 8 → t.print.deferred = s.print.deferred ∧ t.dport.inFlight = sent.inFlight ∧
                ∃ more, t.dport.reply = sent.reply ++ more) ∧
              (8 ≤ s.dport.reply.length → t.print.deferred = s.print.deferred ++ [reply])) ∧
            Keeps [.print, .timing, .directory, .port, .notices, .dport] (taken s) t))

/-! ### Readings and SOFT_RESET -/

/-- READINGS. TABLE_READ answers entries of the run from its first, at least one (R198); how many fit a reply the model leaves
free (log 11). STATUS answers the section named as it stands, with the 23 counters of PART in their order, and changes nothing
(R201); the paper and head lines read as they do when it is taken, brought by its row: the model's choice (log 9). CLOCK_SET
and the seconds of the survey clock (R200). -/
def Obligations.TablesStatusAndClockAreRead : Prop :=
  (∀ (e : Envelope) (table : Option TableId) (first count : Nat) (s : State),
    Ready (.tableRead e table first count) s → e.lengthOk = true →
      (table = none → TurnedAway (.tableRead e table first count) e.tag 2 .badParam s) ∧
      ∀ x, table = some x →
        ((count = 0 ∨ (tableEntries x s).length < first + count) →
          TurnedAway (.tableRead e table first count) e.tag 2 .badParam s) ∧
        (1 ≤ count → first + count ≤ (tableEntries x s).length →
          ∃ n, 1 ≤ n ∧ n ≤ count ∧ CarriedOut (.tableRead e table first count) e.tag 2
            (.table n (((tableEntries x s).drop first).take n)) s (taken s))) ∧
  (∀ s : State, tableEntries .survey s = [.survey s.survey] ∧
    tableEntries .reference s = [0, 1, 2, 3].map (fun i => .reference (s.tracker.table.get i)) ∧
    (∀ c : Chan, (tableEntries .threshold s)[c.val]? = some
      (.threshold ((s.chan c).staged.getD (s.chan c).inForce) (s.chan c).staged.isSome)) ∧
    (tableEntries .threshold s).length = 16 ∧
    tableEntries .capture s = [0, 1, 2, 3].map (fun i => .capture (s.cap i).entry) ∧
    (∃ pair, pair = s.harmonic.staged.getD (s.harmonic.bins, s.harmonic.params) ∧
      tableEntries .bin s = pair.1.map (fun b => .bin b s.harmonic.staged.isSome) ∧
      (tableEntries .harmonic s).length = 17 ∧
      (∀ j < 16, (tableEntries .harmonic s)[j]? =
        some (.harmonic ⟨0, pair.2.watch.getD j false⟩ s.harmonic.staged.isSome)) ∧
      (tableEntries .harmonic s)[16]? = some (.harmonic ⟨pair.2.m, pair.2.exclude⟩ s.harmonic.staged.isSome)) ∧
    tableEntries .template s = [0, 1, 2, 3].map (fun i => .template (s.print.templates.get i)) ∧
    tableEntries .printTiming s = [.printTiming s.print.timing]) ∧
  (∀ (e : PrinterEnvelope) (sel : Option StatusSection) (s : State), Ready (.status e sel) s → e.lengthOk = true →
    (sel = none → TurnedAway (.status e sel) e.tag 3 .badParam s) ∧
    ∀ x, sel = some x →
      CarriedOut (.status e sel) e.tag 3 (.status (statusView x e.paper e.head (taken s))) s (taken s)) ∧
  (∀ (paper : Paper) (head : Head) (s : State),
    statusView .sessions paper head s =
      .sessions ([0, 1, 2, 3].map (fun i => (⟨(s.slot i).phase, (s.slot i).serial, (s.slot i).kinds,
        (s.slot i).pendingSet.getLsbD 0, (s.slot i).passthrough⟩ : SlotStatus))) s.session.event ∧
    statusView .tracker paper head s =
      .tracker s.tracker.mode s.tracker.reference s.tracker.position s.tracker.newest s.tracker.lPrev
        s.tracker.handoverCount s.tracker.change s.tracker.chatter s.tracker.forcedCloses ∧
    (∃ list, list.length = 16 ∧
      (∀ c : Chan, list[c.val]? = some
        (⟨(s.chan c).held, (s.chan c).state, (s.chan c).inForce, (s.chan c).staged.isSome⟩ : ChannelStatus)) ∧
      statusView .detector paper head s =
        .detector list (s.episodes.current.map (fun e =>
          (⟨e.number, e.firstBoundary, e.events.length, e.openChannels.length, e.dropped⟩ : EpisodeStatus)))
          s.episodes.outbox.length) ∧
    (∃ list, list.length = 4 ∧
      (∀ i : Slot, list[i.val]? = some
        (⟨(s.cap i).phase, (s.cap i).recordId, (s.cap i).episodes, (s.cap i).kinds, (s.cap i).first,
          (s.cap i).halfCycles, (s.cap i).remaining, (s.cap i).preUnread, (s.cap i).readPos, (s.cap i).counts,
          (s.cap i).held.instants, itemsSize (s.cap i).staging + busyBytes s i, (s.cap i).flags, (s.cap i).pending,
          (s.cap i).ring.length⟩ : CaptureStatus)) ∧
      statusView .capture paper head s = .capture list) ∧
    statusView .harmonic paper head s =
      .harmonic (s.harmonic.schedule.map (fun w => (⟨w.start, w.stop, w.done⟩ : WindowStatus)))
        (s.harmonic.current.map (fun v => (⟨v.windows, v.channels.map (fun a => a.chan)⟩ : IntervalStatus)))
        s.harmonic.ending.isSome s.harmonic.outbox.length s.harmonic.late s.harmonic.lost s.harmonic.staged.isSome ∧
    statusView .store paper head s =
      .store (freeCount s) (claimed s).length s.store.dir.length (s.store.dir.countP (fun e => e.state == .writing))
        s.store.nextId s.store.lowMark s.store.qp s.store.qs (storeLow s) s.store.parkState s.store.retention
        (if s.store.readout.state = .none then none else some (s.store.readout.id, s.store.readout.next))
        s.store.reclaimed ∧
    statusView .sites paper head s =
      .sites (s.openSite.map (fun e => e.id)) s.sites.registry.length s.sites.notes.length s.sites.nextNote ∧
    statusView .print paper head s =
      .print s.print.gen.mode paper head s.print.jobs.length s.print.underruns ∧
    statusView .notices paper head s =
      .notices s.notices.requests s.notices.masked s.notices.service s.notices.mode s.notices.base.val
        s.notices.polling s.notices.offered s.notices.waiting ∧
    statusView .dport paper head s =
      .dport s.dport.passthrough.length s.dport.reply.length s.dport.periodic.length s.dport.record.length
        (s.dport.sendBuffer.map (fun x => (x.1.id, x.2))) s.dport.hold
        [s.dport.crcErrorsU, s.dport.crcErrorsD, s.dport.frameErrorsU, s.dport.frameErrorsD,
          s.dport.passthroughDrops]) ∧
  (∀ (paper : Paper) (head : Head) (s : State), statusView .part paper head s =
    .part s.store.parkState s.store.retention s.instant s.clock.seconds s.clock.isSet s.cmd.queue.length
      s.cmd.waiting.isSome
      [s.session.stray, s.session.controlDrops, s.session.podReplyDrops, s.session.upDrops, s.session.laneResyncs,
        (s.slot 0).ingressDrops, (s.slot 1).ingressDrops, (s.slot 2).ingressDrops, (s.slot 3).ingressDrops,
        s.tracker.chatter, s.tracker.forcedCloses, s.episodes.lost, s.episodes.skips, s.harmonic.late, s.harmonic.lost,
        s.store.reclaimed, s.print.underruns, s.dport.crcErrorsU, s.dport.crcErrorsD, s.dport.frameErrorsU,
        s.dport.frameErrorsD, s.dport.passthroughDrops, s.cmd.overflows]) ∧
  (∀ (e : Envelope) (v : BitVec 32) (s : State), Ready (.clockSet e v) s → e.lengthOk = true →
    CarriedOut (.clockSet e v) e.tag 4 (.clockSet s.clock.seconds v.toNat) s
      ((taken s).setClock ⟨v.toNat, true, 0⟩)) ∧
  ∀ s : State, exec .surveyClockTick s =
    .next (s.setClock ⟨(s.clock.seconds + 1) % 2 ^ 32, s.clock.isSet, 0⟩)

/-- SOFT_RESET. What SOFT_RESET leaves in each block (R202): the sessions (R19), the tracker (R35), the detector and the episode
unit (R59), the capture unit (R79), the harmonic engine (R100), the record store (R125), the site unit (R144), the print
engine (R166), the notice unit (R180), the D-port (R194) and the command unit. That the site registry keeps its interval
numbers through the instants the tracker decides as it enters FREE is the model's choice (log 33), and so is the order in
which the DETACH frames are sent (log 43). -/
def Obligations.SoftResetLeavesEveryBlockAtRest : Prop :=
  ∀ (e : Envelope) (s : State), Ready (.softReset e) s → e.lengthOk = true → s.parked = false →
    s.print.finished.length ≤ 8 →
      ∃ t, CarriedOut (.softReset e) e.tag 5 .empty s t ∧
        (∀ i, t.slot i = { PodSlot.reset with passthrough := (s.slot i).passthrough }) ∧
        t.session.event = none ∧ t.session.control = [] ∧
        t.session.upInFlight.toList ++ t.session.up = s.session.upInFlight.toList ++
          (([0, 1, 2, 3] : List Slot).filter (fun i => (s.slot i).phase != .empty)).map
            (fun i => .detach i (s.slot i).serial) ∧
        (t.tracker.mode, t.tracker.reference, t.tracker.side, t.tracker.crossingCloses, t.tracker.forcedRun) =
          (.free, none, .unknown, 0, 0) ∧
        (t.tracker.list, t.tracker.lPrev, t.tracker.change) = ([], 128, none) ∧
        t.tracker.handoverCount = s.tracker.handoverCount ∧
        (s.tracker.mode = .free →
          (t.tracker.newest, t.tracker.nextNumber, t.tracker.lastDirection, t.tracker.position, t.tracker.decision) =
            (s.tracker.newest, s.tracker.nextNumber, s.tracker.lastDirection, s.tracker.position,
              s.tracker.decision)) ∧
        (s.tracker.mode ≠ .free → s.instant ≤ t.tracker.undecided) ∧
        (∀ c, (t.chan c).state = .normal ∧ (t.chan c).pendingUnwatched = false ∧
          ChannelEnded (s.chan c) (t.chan c)) ∧
        t.episodes = ⟨none, [], none, 0, 0⟩ ∧ (∀ i, t.cap i = { CaptureSlot.reset with entry := (s.cap i).entry }) ∧
        (t.harmonic.schedule, t.harmonic.current, t.harmonic.ending, t.harmonic.outbox, t.harmonic.writer,
          t.harmonic.staged) = ([], none, none, [], none, none) ∧
        (t.harmonic.bins, t.harmonic.params) = s.harmonic.staged.getD (s.harmonic.bins, s.harmonic.params) ∧
        (∀ i, t.harmonic.lanes.get i = none) ∧
        t.store.dir = (s.store.dir.filter (fun d => d.state == .complete)).map (fun d => { d with holds := 0 }) ∧
        t.store.free = s.store.free ++
          (s.store.dir.filter (fun d => d.state == .writing)).flatMap (fun d => d.chain) ∧
        t.store.nextId = s.store.nextId ∧ (t.store.holder, t.store.used) = (.none, 0) ∧
        (t.store.lastServed, t.store.lastSlot) = (s.store.lastServed, s.store.lastSlot) ∧
        t.store.readout.state = .none ∧
        t.sites.registry = s.sites.registry.map (fun x => { x with
          records := x.records - s.store.dir.countP (fun d => d.state == .writing && d.site == x.id), pending := 0 }) ∧
        t.print.jobs = [] ∧ t.print.deferred = [] ∧ t.print.composer.state = .idle ∧
        (t.print.halfA, t.print.halfB, t.print.strobe, t.print.gen.period) = (.free, .free, false, none) ∧
        t.print.gen.mode = (if s.print.timing.lt = 1 then .held else .idle) ∧
        t.print.nextJob = s.print.nextJob ∧
        t.print.finished =
          (s.print.finished ++ s.print.jobs.map
            (fun j => (⟨j.id, j.template, j.site, .cancelled, j.rows, .reset⟩ : JobOutcome))).drop
              (s.print.finished.length + s.print.jobs.length - 8) ∧
        (∀ k, hasSource t.notices.requests k = (k == 4 && storeLow t)) ∧ t.notices.service = [] ∧
        t.notices.offered = none ∧ t.notices.base = 0 ∧ t.notices.waiting = !s.notices.polling ∧
        t.dport = { DPort.reset with inFlight := s.dport.inFlight } ∧
        t.cmd = ⟨s.cmd.queue, none, none, none, 0⟩ ∧ (∀ n ∈ counters t, n = 0) ∧
        Keeps [.slots, .event, .uplink, .tracker, .detector, .episodes, .capture, .harmonic, .directory, .port, .readout,
          .registry, .print, .notices, .dport, .hold, .cmd] (taken s) t

end Statements
end

