-- ==== Sys2Proof/Laws/Memory.lean ====
section
/-! SUPPORT. The record memory: every operation keeps the canonical form, a byte read after a write is the byte written, and
every other byte is as before (R102, log 8). -/

namespace Sys2Proof.Machine

set_option Elab.async false

open Sys2Proof

theorem memWfFrom_mono {lo lo' : Nat} {m : List Host.Cell} (h : memWfFrom lo m = true) (hl : lo' ≤ lo) :
    memWfFrom lo' m = true := by
  cases m with
  | nil => rfl
  | cons c rest =>
    obtain ⟨k, v⟩ := c
    simp only [memWfFrom, Bool.and_eq_true, decide_eq_true_eq] at h ⊢
    exact ⟨⟨by omega, h.1.2⟩, h.2⟩

theorem readByte_below {lo a : Nat} {m : List Host.Cell} (h : memWfFrom lo m = true) (ha : a < lo) :
    readByte m a = 0 := by
  induction m generalizing lo with
  | nil => rfl
  | cons c rest ih =>
    obtain ⟨k, v⟩ := c
    simp only [memWfFrom, Bool.and_eq_true, decide_eq_true_eq] at h
    have hk : k ≠ a := by omega
    simp only [readByte, if_neg hk]
    exact ih h.2 (by omega)

theorem writeByte_wf {lo a : Nat} {m : List Host.Cell} (v : Byte) (h : memWfFrom lo m = true) (ha : lo ≤ a) :
    memWfFrom lo (writeByte m a v) = true := by
  induction m generalizing lo with
  | nil =>
    unfold writeByte
    split
    · rfl
    · next hv => simp only [memWfFrom, Bool.and_true, Bool.and_eq_true, decide_eq_true_eq]; exact ⟨ha, hv⟩
  | cons c rest ih =>
    obtain ⟨k, w⟩ := c
    have h' := h
    simp only [memWfFrom, Bool.and_eq_true, decide_eq_true_eq] at h
    unfold writeByte
    split
    · split
      · exact h'
      · simp only [memWfFrom, Bool.and_eq_true, decide_eq_true_eq]
        exact ⟨⟨ha, by assumption⟩, ⟨by omega, h.1.2⟩, h.2⟩
    · split
      · next hk =>
        subst hk
        split
        · exact memWfFrom_mono h.2 (by omega)
        · simp only [memWfFrom, Bool.and_eq_true, decide_eq_true_eq]
          exact ⟨⟨ha, by assumption⟩, h.2⟩
      · simp only [memWfFrom, Bool.and_eq_true, decide_eq_true_eq]
        exact ⟨h.1, ih h.2 (by omega)⟩

theorem readByte_writeByte_same {lo a : Nat} {m : List Host.Cell} (v : Byte) (h : memWfFrom lo m = true) :
    readByte (writeByte m a v) a = v := by
  induction m generalizing lo with
  | nil =>
    unfold writeByte
    split
    · next hv => simp only [readByte, hv]
    · simp only [readByte, if_true]
  | cons c rest ih =>
    obtain ⟨k, w⟩ := c
    have h' := h
    simp only [memWfFrom, Bool.and_eq_true, decide_eq_true_eq] at h
    unfold writeByte
    split
    · next hk =>
      split
      · next hv =>
        have hne : k ≠ a := by omega
        simp only [readByte, if_neg hne, hv]
        exact readByte_below h.2 (by omega)
      · simp [readByte]
    · split
      · next hk =>
        subst hk
        split
        · next hv => rw [hv]; exact readByte_below h.2 (by omega)
        · simp [readByte]
      · next hlt hne =>
        have hne' : k ≠ a := fun e => hne e.symm
        simp only [readByte, if_neg hne']
        exact ih h.2

theorem readByte_writeByte_other {a b : Nat} {m : List Host.Cell} (v : Byte) (hab : b ≠ a) :
    readByte (writeByte m a v) b = readByte m b := by
  have hba : a ≠ b := fun e => hab e.symm
  induction m with
  | nil =>
    unfold writeByte
    split
    · rfl
    · simp only [readByte, if_neg hba]
  | cons c rest ih =>
    obtain ⟨k, w⟩ := c
    unfold writeByte
    split
    · split
      · rfl
      · simp [readByte, hba]
    · split
      · next hk =>
        have hkb : k ≠ b := fun e => hab (by omega)
        split
        · simp only [readByte, if_neg hkb]
        · simp only [readByte, if_neg hba, if_neg hkb]
      · simp only [readByte, ih]

theorem writeRecord_wf {m : List Host.Cell} (chain : List Nat) (o : Nat) (bytes : List Byte) (h : memWf m = true) :
    memWf (writeRecord m chain o bytes) = true := by
  induction bytes generalizing m o with
  | nil => exact h
  | cons b rest ih => exact ih _ (writeByte_wf b h (Nat.zero_le _))

/-- A write into a record leaves every byte outside the bytes it stores as it was. -/
theorem readByte_writeRecord_other {m : List Host.Cell} {chain : List Nat} {o a : Nat} {bytes : List Byte}
    (h : ∀ j, j < bytes.length → chainAddr chain (o + j) ≠ a) :
    readByte (writeRecord m chain o bytes) a = readByte m a := by
  induction bytes generalizing m o with
  | nil => rfl
  | cons b rest ih =>
    have h0 : chainAddr chain o ≠ a := h 0 (by simp)
    have hr : ∀ j, j < rest.length → chainAddr chain (o + 1 + j) ≠ a := fun j hj => by
      have := h (j + 1) (by simpa using hj)
      rwa [Nat.add_assoc, Nat.add_comm 1 j]
    rw [writeRecord, ih hr, readByte_writeByte_other _ (fun e => h0 e.symm)]

theorem memWfFrom_filter {lo : Nat} {m : List Host.Cell} (p : Host.Cell → Bool) (h : memWfFrom lo m = true) :
    memWfFrom lo (m.filter p) = true := by
  induction m generalizing lo with
  | nil => rfl
  | cons c rest ih =>
    obtain ⟨k, v⟩ := c
    simp only [memWfFrom, Bool.and_eq_true, decide_eq_true_eq] at h
    rw [List.filter_cons]
    split
    · simp only [memWfFrom, Bool.and_eq_true, decide_eq_true_eq]
      exact ⟨h.1, ih h.2⟩
    · exact memWfFrom_mono (ih h.2) (by omega)

theorem keepBelow_wf {m : List Host.Cell} (limit : Nat) (h : memWf m = true) : memWf (keepBelow m limit) = true :=
  memWfFrom_filter _ h

/-- What a park keeps of the memory, byte for byte (R122). -/
theorem readByte_keepBelow {m : List Host.Cell} (limit a : Nat) :
    readByte (keepBelow m limit) a = if a < limit then readByte m a else 0 := by
  induction m with
  | nil => simp [keepBelow, readByte]
  | cons c rest ih =>
    obtain ⟨k, v⟩ := c
    unfold keepBelow at ih ⊢
    rw [List.filter_cons]
    by_cases hk : k < limit
    · simp only [hk, decide_true, if_true, readByte, ih]
      by_cases hka : k = a
      · subst hka; simp [hk]
      · simp [hka]
    · simp only [hk, decide_false, Bool.false_eq_true, if_false, ih, readByte]
      by_cases hka : k = a
      · subst hka; simp [hk]
      · simp [hka]

end Sys2Proof.Machine
end

