-- ==== Sys2Proof/Laws/State.lean ====
section
/-! SUPPORT. Each block after each block is replaced: true by definition, so that no proof unfolds a record update. -/

namespace Sys2Proof.Machine.State

set_option Elab.async false

@[simp] theorem setPending_pending (s : State) (x : List Instr) : (s.setPending x).pending = x := rfl
@[simp] theorem setPending_instant (s : State) (x : List Instr) : (s.setPending x).instant = s.instant := rfl
@[simp] theorem setPending_survey (s : State) (x : List Instr) : (s.setPending x).survey = s.survey := rfl
@[simp] theorem setPending_clock (s : State) (x : List Instr) : (s.setPending x).clock = s.clock := rfl
@[simp] theorem setPending_session (s : State) (x : List Instr) : (s.setPending x).session = s.session := rfl
@[simp] theorem setPending_tracker (s : State) (x : List Instr) : (s.setPending x).tracker = s.tracker := rfl
@[simp] theorem setPending_detector (s : State) (x : List Instr) : (s.setPending x).detector = s.detector := rfl
@[simp] theorem setPending_episodes (s : State) (x : List Instr) : (s.setPending x).episodes = s.episodes := rfl
@[simp] theorem setPending_capture (s : State) (x : List Instr) : (s.setPending x).capture = s.capture := rfl
@[simp] theorem setPending_harmonic (s : State) (x : List Instr) : (s.setPending x).harmonic = s.harmonic := rfl
@[simp] theorem setPending_store (s : State) (x : List Instr) : (s.setPending x).store = s.store := rfl
@[simp] theorem setPending_sites (s : State) (x : List Instr) : (s.setPending x).sites = s.sites := rfl
@[simp] theorem setPending_print (s : State) (x : List Instr) : (s.setPending x).print = s.print := rfl
@[simp] theorem setPending_notices (s : State) (x : List Instr) : (s.setPending x).notices = s.notices := rfl
@[simp] theorem setPending_dport (s : State) (x : List Instr) : (s.setPending x).dport = s.dport := rfl
@[simp] theorem setPending_cmd (s : State) (x : List Instr) : (s.setPending x).cmd = s.cmd := rfl

@[simp] theorem setInstant_pending (s : State) (x : Nat) : (s.setInstant x).pending = s.pending := rfl
@[simp] theorem setInstant_instant (s : State) (x : Nat) : (s.setInstant x).instant = x := rfl
@[simp] theorem setInstant_survey (s : State) (x : Nat) : (s.setInstant x).survey = s.survey := rfl
@[simp] theorem setInstant_clock (s : State) (x : Nat) : (s.setInstant x).clock = s.clock := rfl
@[simp] theorem setInstant_session (s : State) (x : Nat) : (s.setInstant x).session = s.session := rfl
@[simp] theorem setInstant_tracker (s : State) (x : Nat) : (s.setInstant x).tracker = s.tracker := rfl
@[simp] theorem setInstant_detector (s : State) (x : Nat) : (s.setInstant x).detector = s.detector := rfl
@[simp] theorem setInstant_episodes (s : State) (x : Nat) : (s.setInstant x).episodes = s.episodes := rfl
@[simp] theorem setInstant_capture (s : State) (x : Nat) : (s.setInstant x).capture = s.capture := rfl
@[simp] theorem setInstant_harmonic (s : State) (x : Nat) : (s.setInstant x).harmonic = s.harmonic := rfl
@[simp] theorem setInstant_store (s : State) (x : Nat) : (s.setInstant x).store = s.store := rfl
@[simp] theorem setInstant_sites (s : State) (x : Nat) : (s.setInstant x).sites = s.sites := rfl
@[simp] theorem setInstant_print (s : State) (x : Nat) : (s.setInstant x).print = s.print := rfl
@[simp] theorem setInstant_notices (s : State) (x : Nat) : (s.setInstant x).notices = s.notices := rfl
@[simp] theorem setInstant_dport (s : State) (x : Nat) : (s.setInstant x).dport = s.dport := rfl
@[simp] theorem setInstant_cmd (s : State) (x : Nat) : (s.setInstant x).cmd = s.cmd := rfl

@[simp] theorem setSurvey_pending (s : State) (x : SurveyEntry) : (s.setSurvey x).pending = s.pending := rfl
@[simp] theorem setSurvey_instant (s : State) (x : SurveyEntry) : (s.setSurvey x).instant = s.instant := rfl
@[simp] theorem setSurvey_survey (s : State) (x : SurveyEntry) : (s.setSurvey x).survey = x := rfl
@[simp] theorem setSurvey_clock (s : State) (x : SurveyEntry) : (s.setSurvey x).clock = s.clock := rfl
@[simp] theorem setSurvey_session (s : State) (x : SurveyEntry) : (s.setSurvey x).session = s.session := rfl
@[simp] theorem setSurvey_tracker (s : State) (x : SurveyEntry) : (s.setSurvey x).tracker = s.tracker := rfl
@[simp] theorem setSurvey_detector (s : State) (x : SurveyEntry) : (s.setSurvey x).detector = s.detector := rfl
@[simp] theorem setSurvey_episodes (s : State) (x : SurveyEntry) : (s.setSurvey x).episodes = s.episodes := rfl
@[simp] theorem setSurvey_capture (s : State) (x : SurveyEntry) : (s.setSurvey x).capture = s.capture := rfl
@[simp] theorem setSurvey_harmonic (s : State) (x : SurveyEntry) : (s.setSurvey x).harmonic = s.harmonic := rfl
@[simp] theorem setSurvey_store (s : State) (x : SurveyEntry) : (s.setSurvey x).store = s.store := rfl
@[simp] theorem setSurvey_sites (s : State) (x : SurveyEntry) : (s.setSurvey x).sites = s.sites := rfl
@[simp] theorem setSurvey_print (s : State) (x : SurveyEntry) : (s.setSurvey x).print = s.print := rfl
@[simp] theorem setSurvey_notices (s : State) (x : SurveyEntry) : (s.setSurvey x).notices = s.notices := rfl
@[simp] theorem setSurvey_dport (s : State) (x : SurveyEntry) : (s.setSurvey x).dport = s.dport := rfl
@[simp] theorem setSurvey_cmd (s : State) (x : SurveyEntry) : (s.setSurvey x).cmd = s.cmd := rfl

@[simp] theorem setClock_pending (s : State) (x : SurveyClock) : (s.setClock x).pending = s.pending := rfl
@[simp] theorem setClock_instant (s : State) (x : SurveyClock) : (s.setClock x).instant = s.instant := rfl
@[simp] theorem setClock_survey (s : State) (x : SurveyClock) : (s.setClock x).survey = s.survey := rfl
@[simp] theorem setClock_clock (s : State) (x : SurveyClock) : (s.setClock x).clock = x := rfl
@[simp] theorem setClock_session (s : State) (x : SurveyClock) : (s.setClock x).session = s.session := rfl
@[simp] theorem setClock_tracker (s : State) (x : SurveyClock) : (s.setClock x).tracker = s.tracker := rfl
@[simp] theorem setClock_detector (s : State) (x : SurveyClock) : (s.setClock x).detector = s.detector := rfl
@[simp] theorem setClock_episodes (s : State) (x : SurveyClock) : (s.setClock x).episodes = s.episodes := rfl
@[simp] theorem setClock_capture (s : State) (x : SurveyClock) : (s.setClock x).capture = s.capture := rfl
@[simp] theorem setClock_harmonic (s : State) (x : SurveyClock) : (s.setClock x).harmonic = s.harmonic := rfl
@[simp] theorem setClock_store (s : State) (x : SurveyClock) : (s.setClock x).store = s.store := rfl
@[simp] theorem setClock_sites (s : State) (x : SurveyClock) : (s.setClock x).sites = s.sites := rfl
@[simp] theorem setClock_print (s : State) (x : SurveyClock) : (s.setClock x).print = s.print := rfl
@[simp] theorem setClock_notices (s : State) (x : SurveyClock) : (s.setClock x).notices = s.notices := rfl
@[simp] theorem setClock_dport (s : State) (x : SurveyClock) : (s.setClock x).dport = s.dport := rfl
@[simp] theorem setClock_cmd (s : State) (x : SurveyClock) : (s.setClock x).cmd = s.cmd := rfl

@[simp] theorem setSession_pending (s : State) (x : SessionUnit) : (s.setSession x).pending = s.pending := rfl
@[simp] theorem setSession_instant (s : State) (x : SessionUnit) : (s.setSession x).instant = s.instant := rfl
@[simp] theorem setSession_survey (s : State) (x : SessionUnit) : (s.setSession x).survey = s.survey := rfl
@[simp] theorem setSession_clock (s : State) (x : SessionUnit) : (s.setSession x).clock = s.clock := rfl
@[simp] theorem setSession_session (s : State) (x : SessionUnit) : (s.setSession x).session = x := rfl
@[simp] theorem setSession_tracker (s : State) (x : SessionUnit) : (s.setSession x).tracker = s.tracker := rfl
@[simp] theorem setSession_detector (s : State) (x : SessionUnit) : (s.setSession x).detector = s.detector := rfl
@[simp] theorem setSession_episodes (s : State) (x : SessionUnit) : (s.setSession x).episodes = s.episodes := rfl
@[simp] theorem setSession_capture (s : State) (x : SessionUnit) : (s.setSession x).capture = s.capture := rfl
@[simp] theorem setSession_harmonic (s : State) (x : SessionUnit) : (s.setSession x).harmonic = s.harmonic := rfl
@[simp] theorem setSession_store (s : State) (x : SessionUnit) : (s.setSession x).store = s.store := rfl
@[simp] theorem setSession_sites (s : State) (x : SessionUnit) : (s.setSession x).sites = s.sites := rfl
@[simp] theorem setSession_print (s : State) (x : SessionUnit) : (s.setSession x).print = s.print := rfl
@[simp] theorem setSession_notices (s : State) (x : SessionUnit) : (s.setSession x).notices = s.notices := rfl
@[simp] theorem setSession_dport (s : State) (x : SessionUnit) : (s.setSession x).dport = s.dport := rfl
@[simp] theorem setSession_cmd (s : State) (x : SessionUnit) : (s.setSession x).cmd = s.cmd := rfl

@[simp] theorem setTracker_pending (s : State) (x : Tracker) : (s.setTracker x).pending = s.pending := rfl
@[simp] theorem setTracker_instant (s : State) (x : Tracker) : (s.setTracker x).instant = s.instant := rfl
@[simp] theorem setTracker_survey (s : State) (x : Tracker) : (s.setTracker x).survey = s.survey := rfl
@[simp] theorem setTracker_clock (s : State) (x : Tracker) : (s.setTracker x).clock = s.clock := rfl
@[simp] theorem setTracker_session (s : State) (x : Tracker) : (s.setTracker x).session = s.session := rfl
@[simp] theorem setTracker_tracker (s : State) (x : Tracker) : (s.setTracker x).tracker = x := rfl
@[simp] theorem setTracker_detector (s : State) (x : Tracker) : (s.setTracker x).detector = s.detector := rfl
@[simp] theorem setTracker_episodes (s : State) (x : Tracker) : (s.setTracker x).episodes = s.episodes := rfl
@[simp] theorem setTracker_capture (s : State) (x : Tracker) : (s.setTracker x).capture = s.capture := rfl
@[simp] theorem setTracker_harmonic (s : State) (x : Tracker) : (s.setTracker x).harmonic = s.harmonic := rfl
@[simp] theorem setTracker_store (s : State) (x : Tracker) : (s.setTracker x).store = s.store := rfl
@[simp] theorem setTracker_sites (s : State) (x : Tracker) : (s.setTracker x).sites = s.sites := rfl
@[simp] theorem setTracker_print (s : State) (x : Tracker) : (s.setTracker x).print = s.print := rfl
@[simp] theorem setTracker_notices (s : State) (x : Tracker) : (s.setTracker x).notices = s.notices := rfl
@[simp] theorem setTracker_dport (s : State) (x : Tracker) : (s.setTracker x).dport = s.dport := rfl
@[simp] theorem setTracker_cmd (s : State) (x : Tracker) : (s.setTracker x).cmd = s.cmd := rfl

@[simp] theorem setDetector_pending (s : State) (x : Quad (Quad ChannelState)) : (s.setDetector x).pending = s.pending := rfl
@[simp] theorem setDetector_instant (s : State) (x : Quad (Quad ChannelState)) : (s.setDetector x).instant = s.instant := rfl
@[simp] theorem setDetector_survey (s : State) (x : Quad (Quad ChannelState)) : (s.setDetector x).survey = s.survey := rfl
@[simp] theorem setDetector_clock (s : State) (x : Quad (Quad ChannelState)) : (s.setDetector x).clock = s.clock := rfl
@[simp] theorem setDetector_session (s : State) (x : Quad (Quad ChannelState)) : (s.setDetector x).session = s.session := rfl
@[simp] theorem setDetector_tracker (s : State) (x : Quad (Quad ChannelState)) : (s.setDetector x).tracker = s.tracker := rfl
@[simp] theorem setDetector_detector (s : State) (x : Quad (Quad ChannelState)) : (s.setDetector x).detector = x := rfl
@[simp] theorem setDetector_episodes (s : State) (x : Quad (Quad ChannelState)) : (s.setDetector x).episodes = s.episodes := rfl
@[simp] theorem setDetector_capture (s : State) (x : Quad (Quad ChannelState)) : (s.setDetector x).capture = s.capture := rfl
@[simp] theorem setDetector_harmonic (s : State) (x : Quad (Quad ChannelState)) : (s.setDetector x).harmonic = s.harmonic := rfl
@[simp] theorem setDetector_store (s : State) (x : Quad (Quad ChannelState)) : (s.setDetector x).store = s.store := rfl
@[simp] theorem setDetector_sites (s : State) (x : Quad (Quad ChannelState)) : (s.setDetector x).sites = s.sites := rfl
@[simp] theorem setDetector_print (s : State) (x : Quad (Quad ChannelState)) : (s.setDetector x).print = s.print := rfl
@[simp] theorem setDetector_notices (s : State) (x : Quad (Quad ChannelState)) : (s.setDetector x).notices = s.notices := rfl
@[simp] theorem setDetector_dport (s : State) (x : Quad (Quad ChannelState)) : (s.setDetector x).dport = s.dport := rfl
@[simp] theorem setDetector_cmd (s : State) (x : Quad (Quad ChannelState)) : (s.setDetector x).cmd = s.cmd := rfl

@[simp] theorem setEpisodes_pending (s : State) (x : EpisodeUnit) : (s.setEpisodes x).pending = s.pending := rfl
@[simp] theorem setEpisodes_instant (s : State) (x : EpisodeUnit) : (s.setEpisodes x).instant = s.instant := rfl
@[simp] theorem setEpisodes_survey (s : State) (x : EpisodeUnit) : (s.setEpisodes x).survey = s.survey := rfl
@[simp] theorem setEpisodes_clock (s : State) (x : EpisodeUnit) : (s.setEpisodes x).clock = s.clock := rfl
@[simp] theorem setEpisodes_session (s : State) (x : EpisodeUnit) : (s.setEpisodes x).session = s.session := rfl
@[simp] theorem setEpisodes_tracker (s : State) (x : EpisodeUnit) : (s.setEpisodes x).tracker = s.tracker := rfl
@[simp] theorem setEpisodes_detector (s : State) (x : EpisodeUnit) : (s.setEpisodes x).detector = s.detector := rfl
@[simp] theorem setEpisodes_episodes (s : State) (x : EpisodeUnit) : (s.setEpisodes x).episodes = x := rfl
@[simp] theorem setEpisodes_capture (s : State) (x : EpisodeUnit) : (s.setEpisodes x).capture = s.capture := rfl
@[simp] theorem setEpisodes_harmonic (s : State) (x : EpisodeUnit) : (s.setEpisodes x).harmonic = s.harmonic := rfl
@[simp] theorem setEpisodes_store (s : State) (x : EpisodeUnit) : (s.setEpisodes x).store = s.store := rfl
@[simp] theorem setEpisodes_sites (s : State) (x : EpisodeUnit) : (s.setEpisodes x).sites = s.sites := rfl
@[simp] theorem setEpisodes_print (s : State) (x : EpisodeUnit) : (s.setEpisodes x).print = s.print := rfl
@[simp] theorem setEpisodes_notices (s : State) (x : EpisodeUnit) : (s.setEpisodes x).notices = s.notices := rfl
@[simp] theorem setEpisodes_dport (s : State) (x : EpisodeUnit) : (s.setEpisodes x).dport = s.dport := rfl
@[simp] theorem setEpisodes_cmd (s : State) (x : EpisodeUnit) : (s.setEpisodes x).cmd = s.cmd := rfl

@[simp] theorem setCapture_pending (s : State) (x : Quad CaptureSlot) : (s.setCapture x).pending = s.pending := rfl
@[simp] theorem setCapture_instant (s : State) (x : Quad CaptureSlot) : (s.setCapture x).instant = s.instant := rfl
@[simp] theorem setCapture_survey (s : State) (x : Quad CaptureSlot) : (s.setCapture x).survey = s.survey := rfl
@[simp] theorem setCapture_clock (s : State) (x : Quad CaptureSlot) : (s.setCapture x).clock = s.clock := rfl
@[simp] theorem setCapture_session (s : State) (x : Quad CaptureSlot) : (s.setCapture x).session = s.session := rfl
@[simp] theorem setCapture_tracker (s : State) (x : Quad CaptureSlot) : (s.setCapture x).tracker = s.tracker := rfl
@[simp] theorem setCapture_detector (s : State) (x : Quad CaptureSlot) : (s.setCapture x).detector = s.detector := rfl
@[simp] theorem setCapture_episodes (s : State) (x : Quad CaptureSlot) : (s.setCapture x).episodes = s.episodes := rfl
@[simp] theorem setCapture_capture (s : State) (x : Quad CaptureSlot) : (s.setCapture x).capture = x := rfl
@[simp] theorem setCapture_harmonic (s : State) (x : Quad CaptureSlot) : (s.setCapture x).harmonic = s.harmonic := rfl
@[simp] theorem setCapture_store (s : State) (x : Quad CaptureSlot) : (s.setCapture x).store = s.store := rfl
@[simp] theorem setCapture_sites (s : State) (x : Quad CaptureSlot) : (s.setCapture x).sites = s.sites := rfl
@[simp] theorem setCapture_print (s : State) (x : Quad CaptureSlot) : (s.setCapture x).print = s.print := rfl
@[simp] theorem setCapture_notices (s : State) (x : Quad CaptureSlot) : (s.setCapture x).notices = s.notices := rfl
@[simp] theorem setCapture_dport (s : State) (x : Quad CaptureSlot) : (s.setCapture x).dport = s.dport := rfl
@[simp] theorem setCapture_cmd (s : State) (x : Quad CaptureSlot) : (s.setCapture x).cmd = s.cmd := rfl

@[simp] theorem setHarmonic_pending (s : State) (x : HarmonicEngine) : (s.setHarmonic x).pending = s.pending := rfl
@[simp] theorem setHarmonic_instant (s : State) (x : HarmonicEngine) : (s.setHarmonic x).instant = s.instant := rfl
@[simp] theorem setHarmonic_survey (s : State) (x : HarmonicEngine) : (s.setHarmonic x).survey = s.survey := rfl
@[simp] theorem setHarmonic_clock (s : State) (x : HarmonicEngine) : (s.setHarmonic x).clock = s.clock := rfl
@[simp] theorem setHarmonic_session (s : State) (x : HarmonicEngine) : (s.setHarmonic x).session = s.session := rfl
@[simp] theorem setHarmonic_tracker (s : State) (x : HarmonicEngine) : (s.setHarmonic x).tracker = s.tracker := rfl
@[simp] theorem setHarmonic_detector (s : State) (x : HarmonicEngine) : (s.setHarmonic x).detector = s.detector := rfl
@[simp] theorem setHarmonic_episodes (s : State) (x : HarmonicEngine) : (s.setHarmonic x).episodes = s.episodes := rfl
@[simp] theorem setHarmonic_capture (s : State) (x : HarmonicEngine) : (s.setHarmonic x).capture = s.capture := rfl
@[simp] theorem setHarmonic_harmonic (s : State) (x : HarmonicEngine) : (s.setHarmonic x).harmonic = x := rfl
@[simp] theorem setHarmonic_store (s : State) (x : HarmonicEngine) : (s.setHarmonic x).store = s.store := rfl
@[simp] theorem setHarmonic_sites (s : State) (x : HarmonicEngine) : (s.setHarmonic x).sites = s.sites := rfl
@[simp] theorem setHarmonic_print (s : State) (x : HarmonicEngine) : (s.setHarmonic x).print = s.print := rfl
@[simp] theorem setHarmonic_notices (s : State) (x : HarmonicEngine) : (s.setHarmonic x).notices = s.notices := rfl
@[simp] theorem setHarmonic_dport (s : State) (x : HarmonicEngine) : (s.setHarmonic x).dport = s.dport := rfl
@[simp] theorem setHarmonic_cmd (s : State) (x : HarmonicEngine) : (s.setHarmonic x).cmd = s.cmd := rfl

@[simp] theorem setStore_pending (s : State) (x : Store) : (s.setStore x).pending = s.pending := rfl
@[simp] theorem setStore_instant (s : State) (x : Store) : (s.setStore x).instant = s.instant := rfl
@[simp] theorem setStore_survey (s : State) (x : Store) : (s.setStore x).survey = s.survey := rfl
@[simp] theorem setStore_clock (s : State) (x : Store) : (s.setStore x).clock = s.clock := rfl
@[simp] theorem setStore_session (s : State) (x : Store) : (s.setStore x).session = s.session := rfl
@[simp] theorem setStore_tracker (s : State) (x : Store) : (s.setStore x).tracker = s.tracker := rfl
@[simp] theorem setStore_detector (s : State) (x : Store) : (s.setStore x).detector = s.detector := rfl
@[simp] theorem setStore_episodes (s : State) (x : Store) : (s.setStore x).episodes = s.episodes := rfl
@[simp] theorem setStore_capture (s : State) (x : Store) : (s.setStore x).capture = s.capture := rfl
@[simp] theorem setStore_harmonic (s : State) (x : Store) : (s.setStore x).harmonic = s.harmonic := rfl
@[simp] theorem setStore_store (s : State) (x : Store) : (s.setStore x).store = x := rfl
@[simp] theorem setStore_sites (s : State) (x : Store) : (s.setStore x).sites = s.sites := rfl
@[simp] theorem setStore_print (s : State) (x : Store) : (s.setStore x).print = s.print := rfl
@[simp] theorem setStore_notices (s : State) (x : Store) : (s.setStore x).notices = s.notices := rfl
@[simp] theorem setStore_dport (s : State) (x : Store) : (s.setStore x).dport = s.dport := rfl
@[simp] theorem setStore_cmd (s : State) (x : Store) : (s.setStore x).cmd = s.cmd := rfl

@[simp] theorem setSites_pending (s : State) (x : SiteUnit) : (s.setSites x).pending = s.pending := rfl
@[simp] theorem setSites_instant (s : State) (x : SiteUnit) : (s.setSites x).instant = s.instant := rfl
@[simp] theorem setSites_survey (s : State) (x : SiteUnit) : (s.setSites x).survey = s.survey := rfl
@[simp] theorem setSites_clock (s : State) (x : SiteUnit) : (s.setSites x).clock = s.clock := rfl
@[simp] theorem setSites_session (s : State) (x : SiteUnit) : (s.setSites x).session = s.session := rfl
@[simp] theorem setSites_tracker (s : State) (x : SiteUnit) : (s.setSites x).tracker = s.tracker := rfl
@[simp] theorem setSites_detector (s : State) (x : SiteUnit) : (s.setSites x).detector = s.detector := rfl
@[simp] theorem setSites_episodes (s : State) (x : SiteUnit) : (s.setSites x).episodes = s.episodes := rfl
@[simp] theorem setSites_capture (s : State) (x : SiteUnit) : (s.setSites x).capture = s.capture := rfl
@[simp] theorem setSites_harmonic (s : State) (x : SiteUnit) : (s.setSites x).harmonic = s.harmonic := rfl
@[simp] theorem setSites_store (s : State) (x : SiteUnit) : (s.setSites x).store = s.store := rfl
@[simp] theorem setSites_sites (s : State) (x : SiteUnit) : (s.setSites x).sites = x := rfl
@[simp] theorem setSites_print (s : State) (x : SiteUnit) : (s.setSites x).print = s.print := rfl
@[simp] theorem setSites_notices (s : State) (x : SiteUnit) : (s.setSites x).notices = s.notices := rfl
@[simp] theorem setSites_dport (s : State) (x : SiteUnit) : (s.setSites x).dport = s.dport := rfl
@[simp] theorem setSites_cmd (s : State) (x : SiteUnit) : (s.setSites x).cmd = s.cmd := rfl

@[simp] theorem setPrint_pending (s : State) (x : PrintEngine) : (s.setPrint x).pending = s.pending := rfl
@[simp] theorem setPrint_instant (s : State) (x : PrintEngine) : (s.setPrint x).instant = s.instant := rfl
@[simp] theorem setPrint_survey (s : State) (x : PrintEngine) : (s.setPrint x).survey = s.survey := rfl
@[simp] theorem setPrint_clock (s : State) (x : PrintEngine) : (s.setPrint x).clock = s.clock := rfl
@[simp] theorem setPrint_session (s : State) (x : PrintEngine) : (s.setPrint x).session = s.session := rfl
@[simp] theorem setPrint_tracker (s : State) (x : PrintEngine) : (s.setPrint x).tracker = s.tracker := rfl
@[simp] theorem setPrint_detector (s : State) (x : PrintEngine) : (s.setPrint x).detector = s.detector := rfl
@[simp] theorem setPrint_episodes (s : State) (x : PrintEngine) : (s.setPrint x).episodes = s.episodes := rfl
@[simp] theorem setPrint_capture (s : State) (x : PrintEngine) : (s.setPrint x).capture = s.capture := rfl
@[simp] theorem setPrint_harmonic (s : State) (x : PrintEngine) : (s.setPrint x).harmonic = s.harmonic := rfl
@[simp] theorem setPrint_store (s : State) (x : PrintEngine) : (s.setPrint x).store = s.store := rfl
@[simp] theorem setPrint_sites (s : State) (x : PrintEngine) : (s.setPrint x).sites = s.sites := rfl
@[simp] theorem setPrint_print (s : State) (x : PrintEngine) : (s.setPrint x).print = x := rfl
@[simp] theorem setPrint_notices (s : State) (x : PrintEngine) : (s.setPrint x).notices = s.notices := rfl
@[simp] theorem setPrint_dport (s : State) (x : PrintEngine) : (s.setPrint x).dport = s.dport := rfl
@[simp] theorem setPrint_cmd (s : State) (x : PrintEngine) : (s.setPrint x).cmd = s.cmd := rfl

@[simp] theorem setNotices_pending (s : State) (x : NoticeUnit) : (s.setNotices x).pending = s.pending := rfl
@[simp] theorem setNotices_instant (s : State) (x : NoticeUnit) : (s.setNotices x).instant = s.instant := rfl
@[simp] theorem setNotices_survey (s : State) (x : NoticeUnit) : (s.setNotices x).survey = s.survey := rfl
@[simp] theorem setNotices_clock (s : State) (x : NoticeUnit) : (s.setNotices x).clock = s.clock := rfl
@[simp] theorem setNotices_session (s : State) (x : NoticeUnit) : (s.setNotices x).session = s.session := rfl
@[simp] theorem setNotices_tracker (s : State) (x : NoticeUnit) : (s.setNotices x).tracker = s.tracker := rfl
@[simp] theorem setNotices_detector (s : State) (x : NoticeUnit) : (s.setNotices x).detector = s.detector := rfl
@[simp] theorem setNotices_episodes (s : State) (x : NoticeUnit) : (s.setNotices x).episodes = s.episodes := rfl
@[simp] theorem setNotices_capture (s : State) (x : NoticeUnit) : (s.setNotices x).capture = s.capture := rfl
@[simp] theorem setNotices_harmonic (s : State) (x : NoticeUnit) : (s.setNotices x).harmonic = s.harmonic := rfl
@[simp] theorem setNotices_store (s : State) (x : NoticeUnit) : (s.setNotices x).store = s.store := rfl
@[simp] theorem setNotices_sites (s : State) (x : NoticeUnit) : (s.setNotices x).sites = s.sites := rfl
@[simp] theorem setNotices_print (s : State) (x : NoticeUnit) : (s.setNotices x).print = s.print := rfl
@[simp] theorem setNotices_notices (s : State) (x : NoticeUnit) : (s.setNotices x).notices = x := rfl
@[simp] theorem setNotices_dport (s : State) (x : NoticeUnit) : (s.setNotices x).dport = s.dport := rfl
@[simp] theorem setNotices_cmd (s : State) (x : NoticeUnit) : (s.setNotices x).cmd = s.cmd := rfl

@[simp] theorem setDport_pending (s : State) (x : DPort) : (s.setDport x).pending = s.pending := rfl
@[simp] theorem setDport_instant (s : State) (x : DPort) : (s.setDport x).instant = s.instant := rfl
@[simp] theorem setDport_survey (s : State) (x : DPort) : (s.setDport x).survey = s.survey := rfl
@[simp] theorem setDport_clock (s : State) (x : DPort) : (s.setDport x).clock = s.clock := rfl
@[simp] theorem setDport_session (s : State) (x : DPort) : (s.setDport x).session = s.session := rfl
@[simp] theorem setDport_tracker (s : State) (x : DPort) : (s.setDport x).tracker = s.tracker := rfl
@[simp] theorem setDport_detector (s : State) (x : DPort) : (s.setDport x).detector = s.detector := rfl
@[simp] theorem setDport_episodes (s : State) (x : DPort) : (s.setDport x).episodes = s.episodes := rfl
@[simp] theorem setDport_capture (s : State) (x : DPort) : (s.setDport x).capture = s.capture := rfl
@[simp] theorem setDport_harmonic (s : State) (x : DPort) : (s.setDport x).harmonic = s.harmonic := rfl
@[simp] theorem setDport_store (s : State) (x : DPort) : (s.setDport x).store = s.store := rfl
@[simp] theorem setDport_sites (s : State) (x : DPort) : (s.setDport x).sites = s.sites := rfl
@[simp] theorem setDport_print (s : State) (x : DPort) : (s.setDport x).print = s.print := rfl
@[simp] theorem setDport_notices (s : State) (x : DPort) : (s.setDport x).notices = s.notices := rfl
@[simp] theorem setDport_dport (s : State) (x : DPort) : (s.setDport x).dport = x := rfl
@[simp] theorem setDport_cmd (s : State) (x : DPort) : (s.setDport x).cmd = s.cmd := rfl

@[simp] theorem setCmd_pending (s : State) (x : CommandUnit) : (s.setCmd x).pending = s.pending := rfl
@[simp] theorem setCmd_instant (s : State) (x : CommandUnit) : (s.setCmd x).instant = s.instant := rfl
@[simp] theorem setCmd_survey (s : State) (x : CommandUnit) : (s.setCmd x).survey = s.survey := rfl
@[simp] theorem setCmd_clock (s : State) (x : CommandUnit) : (s.setCmd x).clock = s.clock := rfl
@[simp] theorem setCmd_session (s : State) (x : CommandUnit) : (s.setCmd x).session = s.session := rfl
@[simp] theorem setCmd_tracker (s : State) (x : CommandUnit) : (s.setCmd x).tracker = s.tracker := rfl
@[simp] theorem setCmd_detector (s : State) (x : CommandUnit) : (s.setCmd x).detector = s.detector := rfl
@[simp] theorem setCmd_episodes (s : State) (x : CommandUnit) : (s.setCmd x).episodes = s.episodes := rfl
@[simp] theorem setCmd_capture (s : State) (x : CommandUnit) : (s.setCmd x).capture = s.capture := rfl
@[simp] theorem setCmd_harmonic (s : State) (x : CommandUnit) : (s.setCmd x).harmonic = s.harmonic := rfl
@[simp] theorem setCmd_store (s : State) (x : CommandUnit) : (s.setCmd x).store = s.store := rfl
@[simp] theorem setCmd_sites (s : State) (x : CommandUnit) : (s.setCmd x).sites = s.sites := rfl
@[simp] theorem setCmd_print (s : State) (x : CommandUnit) : (s.setCmd x).print = s.print := rfl
@[simp] theorem setCmd_notices (s : State) (x : CommandUnit) : (s.setCmd x).notices = s.notices := rfl
@[simp] theorem setCmd_dport (s : State) (x : CommandUnit) : (s.setCmd x).dport = s.dport := rfl
@[simp] theorem setCmd_cmd (s : State) (x : CommandUnit) : (s.setCmd x).cmd = x := rfl

end Sys2Proof.Machine.State
end

