-- ==== Sys2Proof/Laws/Does.lean ====
section
/-! SUPPORT. What an operation can do, said once for each: which parts of the state it may change (`Keeps`), and that it keeps
what every part keeps (`Safe`). The two travel together as `Does`. -/

namespace Sys2Proof.Machine

set_option Elab.async false

open Sys2Proof

/-! ### What each block keeps of its own -/

def SessionUnit.queuesOk (u : SessionUnit) : Prop := u.control.length ≤ 8 ∧ u.up.length ≤ 8

def SessionUnit.dropsOk (u : SessionUnit) : Prop :=
  u.stray ≤ 65535 ∧ u.controlDrops ≤ 65535 ∧ u.podReplyDrops ≤ 65535 ∧ u.upDrops ≤ 65535 ∧ u.laneResyncs ≤ 65535

def slotDropsOk (q : Quad PodSlot) : Prop := ∀ i, (q.get i).ingressDrops ≤ 65535

def Tracker.countsOk (t : Tracker) : Prop := t.chatter ≤ 65535 ∧ t.forcedCloses ≤ 65535

def EpisodeUnit.countsOk (u : EpisodeUnit) : Prop := u.lost ≤ 65535 ∧ u.skips ≤ 65535

def HarmonicEngine.countsOk (h : HarmonicEngine) : Prop := h.late ≤ 65535 ∧ h.lost ≤ 65535

def PrintEngine.queuesOk (p : PrintEngine) : Prop := p.jobs.length ≤ 8 ∧ p.finished.length ≤ 8

def DPort.queuesOk (d : DPort) : Prop :=
  d.passthrough.length ≤ 8 ∧ d.reply.length ≤ 8 ∧ d.periodic.length ≤ 2 ∧ d.record.length ≤ 32

def DPort.countsOk (d : DPort) : Prop :=
  d.crcErrorsU ≤ 65535 ∧ d.crcErrorsD ≤ 65535 ∧ d.frameErrorsU ≤ 65535 ∧ d.frameErrorsD ≤ 65535 ∧
    d.passthroughDrops ≤ 65535

/-- What holds of each block before holds of it after, block by block. -/
structure Safe (s t : State) : Prop where
  sessionQ : s.session.queuesOk → t.session.queuesOk
  sessionC : s.session.dropsOk → t.session.dropsOk
  slotsC : slotDropsOk s.session.slots → slotDropsOk t.session.slots
  trackerQ : s.tracker.list.length ≤ 16 → t.tracker.list.length ≤ 16
  trackerC : s.tracker.countsOk → t.tracker.countsOk
  episodesQ : s.episodes.outbox.length ≤ 4 → t.episodes.outbox.length ≤ 4
  episodesC : s.episodes.countsOk → t.episodes.countsOk
  harmonicQ : s.harmonic.outbox.length ≤ 2 → t.harmonic.outbox.length ≤ 2
  harmonicC : s.harmonic.countsOk → t.harmonic.countsOk
  mem : memWf s.store.mem = true → memWf t.store.mem = true
  storeC : s.store.reclaimed ≤ 65535 → t.store.reclaimed ≤ 65535
  registryQ : s.sites.registry.length ≤ 16 → t.sites.registry.length ≤ 16
  notesQ : s.sites.notes.length ≤ 64 → t.sites.notes.length ≤ 64
  registry : RegistryOk s.sites.registry → RegistryOk t.sites.registry
  printQ : s.print.queuesOk → t.print.queuesOk
  printC : s.print.underruns ≤ 65535 → t.print.underruns ≤ 65535
  notices : NoticeOk s.notices → NoticeOk t.notices
  dportQ : s.dport.queuesOk → t.dport.queuesOk
  dportC : s.dport.countsOk → t.dport.countsOk
  cmdQ : s.cmd.queue.length ≤ 4 → t.cmd.queue.length ≤ 4
  cmdC : s.cmd.overflows ≤ 65535 → t.cmd.overflows ≤ 65535

/-- Only the listed parts may differ, and what each block keeps is kept. -/
structure Does (ps : List Part) (s t : State) : Prop where
  keeps : Keeps ps s t
  safe : Safe s t

theorem Safe.refl (s : State) : Safe s s :=
  ⟨id, id, id, id, id, id, id, id, id, id, id, id, id, id, id, id, id, id, id, id, id⟩

theorem Safe.trans {s t u : State} (h : Safe s t) (k : Safe t u) : Safe s u where
  sessionQ := k.sessionQ ∘ h.sessionQ
  sessionC := k.sessionC ∘ h.sessionC
  slotsC := k.slotsC ∘ h.slotsC
  trackerQ := k.trackerQ ∘ h.trackerQ
  trackerC := k.trackerC ∘ h.trackerC
  episodesQ := k.episodesQ ∘ h.episodesQ
  episodesC := k.episodesC ∘ h.episodesC
  harmonicQ := k.harmonicQ ∘ h.harmonicQ
  harmonicC := k.harmonicC ∘ h.harmonicC
  mem := k.mem ∘ h.mem
  storeC := k.storeC ∘ h.storeC
  registryQ := k.registryQ ∘ h.registryQ
  notesQ := k.notesQ ∘ h.notesQ
  registry := k.registry ∘ h.registry
  printQ := k.printQ ∘ h.printQ
  printC := k.printC ∘ h.printC
  notices := k.notices ∘ h.notices
  dportQ := k.dportQ ∘ h.dportQ
  dportC := k.dportC ∘ h.dportC
  cmdQ := k.cmdQ ∘ h.cmdQ
  cmdC := k.cmdC ∘ h.cmdC

theorem Part.same_refl (p : Part) (s : State) : p.Same s s := by
  cases p <;> exact rfl

theorem Part.same_trans (p : Part) {s t u : State} (h : p.Same s t) (k : p.Same t u) : p.Same s u := by
  cases p <;> exact Eq.trans k h

theorem Does.refl (ps : List Part) (s : State) : Does ps s s := ⟨fun p _ => p.same_refl s, Safe.refl s⟩

theorem Does.trans {ps : List Part} {s t u : State} (h : Does ps s t) (k : Does ps t u) : Does ps s u :=
  ⟨fun p hp => p.same_trans (h.keeps p hp) (k.keeps p hp), h.safe.trans k.safe⟩

/-- More parts may differ. -/
theorem Does.on {ps qs : List Part} {s t : State} (h : Does ps s t) (hs : ∀ p ∈ ps, p ∈ qs := by decide) :
    Does qs s t :=
  ⟨fun p hp => h.keeps p (fun hm => hp (hs p hm)), h.safe⟩

/-- One operation and then another. -/
theorem Does.andThen {ps qs rs : List Part} {s t u : State} (h : Does ps s t) (k : Does qs t u)
    (hp : ∀ p ∈ ps, p ∈ rs := by decide) (hq : ∀ p ∈ qs, p ∈ rs := by decide) : Does rs s u :=
  (h.on hp).trans (k.on hq)

theorem Does.ite {ps : List Part} {s t u : State} {c : Prop} [Decidable c] (h : c → Does ps s t)
    (k : ¬c → Does ps s u) : Does ps s (if c then t else u) := by
  split
  · exact h ‹_›
  · exact k ‹_›

theorem Does.foldl {α : Type} {ps : List Part} {f : State → α → State} (h : ∀ s a, Does ps s (f s a)) (l : List α)
    (s : State) : Does ps s (l.foldl f s) := by
  induction l generalizing s with
  | nil => exact Does.refl ps s
  | cons a rest ih => exact (h s a).trans (ih _)

/-! ### Whole blocks that are kept -/

theorem Keeps.session {ps : List Part} {s t : State} (h : Keeps ps s t) (h1 : .slots ∉ ps := by decide)
    (h2 : .event ∉ ps := by decide) (h3 : .uplink ∉ ps := by decide) : t.session = s.session := by
  have a : t.session.slots = s.session.slots := h .slots h1
  have b : t.session.event = s.session.event := h .event h2
  have c : t.session.uplink = s.session.uplink := h .uplink h3
  simp only [SessionUnit.uplink, SessionUnit.mk.injEq] at c
  cases hs : s.session; cases ht : t.session
  simp_all

theorem Keeps.tracker {ps : List Part} {s t : State} (h : Keeps ps s t) (h1 : .tracker ∉ ps := by decide)
    (h2 : .reference ∉ ps := by decide) : t.tracker = s.tracker := by
  have a : t.tracker.work = s.tracker.work := h .tracker h1
  have b : t.tracker.table = s.tracker.table := h .reference h2
  simp only [Tracker.work, Tracker.mk.injEq] at a
  cases hs : s.tracker; cases ht : t.tracker
  simp_all

theorem Keeps.print {ps : List Part} {s t : State} (h : Keeps ps s t) (h1 : .print ∉ ps := by decide)
    (h2 : .templates ∉ ps := by decide) (h3 : .timing ∉ ps := by decide) : t.print = s.print := by
  have a : t.print.work = s.print.work := h .print h1
  have b : t.print.templates = s.print.templates := h .templates h2
  have c : t.print.timing = s.print.timing := h .timing h3
  simp only [PrintEngine.work, PrintEngine.mk.injEq] at a
  cases hs : s.print; cases ht : t.print
  simp_all

theorem Keeps.notices {ps : List Part} {s t : State} (h : Keeps ps s t) (h1 : .notices ∉ ps := by decide)
    (h2 : .masks ∉ ps := by decide) : t.notices = s.notices := by
  have a : t.notices.work = s.notices.work := h .notices h1
  have b : (t.notices.masked, t.notices.mode, t.notices.polling) =
    (s.notices.masked, s.notices.mode, s.notices.polling) := h .masks h2
  simp only [NoticeUnit.work, NoticeUnit.mk.injEq, Prod.mk.injEq] at a b
  cases hs : s.notices; cases ht : t.notices
  simp_all

theorem Keeps.dport {ps : List Part} {s t : State} (h : Keeps ps s t) (h1 : .dport ∉ ps := by decide)
    (h2 : .hold ∉ ps := by decide) : t.dport = s.dport := by
  have a : t.dport.work = s.dport.work := h .dport h1
  have b : t.dport.hold = s.dport.hold := h .hold h2
  simp only [DPort.work, DPort.mk.injEq] at a
  cases hs : s.dport; cases ht : t.dport
  simp_all

/-! ### One block replaced -/

theorem does_setPending (s : State) (x : List Instr) : Does [.pending] s (s.setPending x) where
  keeps p hp := by
    cases p <;> first | exact absurd (by decide) hp | exact rfl
  safe := by constructor <;> exact id

theorem does_setInstant (s : State) (x : Nat) : Does [.instant] s (s.setInstant x) where
  keeps p hp := by
    cases p <;> first | exact absurd (by decide) hp | exact rfl
  safe := by constructor <;> exact id

theorem does_setSurvey (s : State) (x : SurveyEntry) : Does [.survey] s (s.setSurvey x) where
  keeps p hp := by
    cases p <;> first | exact absurd (by decide) hp | exact rfl
  safe := by constructor <;> exact id

theorem does_setClock (s : State) (x : SurveyClock) : Does [.clock] s (s.setClock x) where
  keeps p hp := by
    cases p <;> first | exact absurd (by decide) hp | exact rfl
  safe := by constructor <;> exact id

theorem does_setDetector (s : State) (x : Quad (Quad ChannelState)) : Does [.detector] s (s.setDetector x) where
  keeps p hp := by
    cases p <;> first | exact absurd (by decide) hp | exact rfl
  safe := by constructor <;> exact id

theorem does_setCapture (s : State) (x : Quad CaptureSlot) : Does [.capture] s (s.setCapture x) where
  keeps p hp := by
    cases p <;> first | exact absurd (by decide) hp | exact rfl
  safe := by constructor <;> exact id

theorem does_setChan (s : State) (c : Chan) (x : ChannelState) : Does [.detector] s (s.setChan c x) :=
  does_setDetector s _

theorem does_setCap (s : State) (i : Slot) (x : CaptureSlot) : Does [.capture] s (s.setCap i x) := does_setCapture s _

/-- The session unit replaced with its slots and event record kept. -/
theorem does_setUplink (s : State) (x : SessionUnit) (h1 : x.slots = s.session.slots := by rfl)
    (h2 : x.event = s.session.event := by rfl) (hq : s.session.queuesOk → x.queuesOk := by exact fun h => h)
    (hc : s.session.dropsOk → x.dropsOk := by exact fun h => h) : Does [.uplink] s (s.setSession x) where
  keeps p hp := by
    cases p <;> first | exact absurd (by decide) hp | exact rfl | exact h1 | exact h2
  safe := by
    have hs : slotDropsOk s.session.slots → slotDropsOk x.slots := fun h => by rw [h1]; exact h
    constructor <;> first | exact id | exact hq | exact hc | exact hs

theorem does_setEvent (s : State) (e : Option SessionEvent) :
    Does [.event] s (s.setSession { s.session with event := e }) where
  keeps p hp := by
    cases p <;> first | exact absurd (by decide) hp | exact rfl
  safe := by constructor <;> first | exact id

theorem Quad.get_set_same {α : Type} (q : Quad α) (i : Fin 4) (a : α) : (q.set i a).get i = a := by
  match i with
  | ⟨0, _⟩ => rfl
  | ⟨1, _⟩ => rfl
  | ⟨2, _⟩ => rfl
  | ⟨3, _⟩ => rfl

theorem Quad.get_set_other {α : Type} (q : Quad α) {i j : Fin 4} (a : α) (h : j ≠ i) :
    (q.set i a).get j = q.get j := by
  match i, j, h with
  | ⟨0, _⟩, ⟨0, _⟩, h => exact absurd rfl h
  | ⟨1, _⟩, ⟨1, _⟩, h => exact absurd rfl h
  | ⟨2, _⟩, ⟨2, _⟩, h => exact absurd rfl h
  | ⟨3, _⟩, ⟨3, _⟩, h => exact absurd rfl h
  | ⟨0, _⟩, ⟨1, _⟩, _ => rfl
  | ⟨0, _⟩, ⟨2, _⟩, _ => rfl
  | ⟨0, _⟩, ⟨3, _⟩, _ => rfl
  | ⟨1, _⟩, ⟨0, _⟩, _ => rfl
  | ⟨1, _⟩, ⟨2, _⟩, _ => rfl
  | ⟨1, _⟩, ⟨3, _⟩, _ => rfl
  | ⟨2, _⟩, ⟨0, _⟩, _ => rfl
  | ⟨2, _⟩, ⟨1, _⟩, _ => rfl
  | ⟨2, _⟩, ⟨3, _⟩, _ => rfl
  | ⟨3, _⟩, ⟨0, _⟩, _ => rfl
  | ⟨3, _⟩, ⟨1, _⟩, _ => rfl
  | ⟨3, _⟩, ⟨2, _⟩, _ => rfl

theorem does_setSlot (s : State) (i : Slot) (p : PodSlot)
    (hd : (s.slot i).ingressDrops ≤ 65535 → p.ingressDrops ≤ 65535 := by exact fun h => h) : Does [.slots] s (s.setSlot i p) where
  keeps q hq := by
    cases q <;> first | exact absurd (by decide) hq | exact rfl
  safe := by
    have hs : slotDropsOk s.session.slots → slotDropsOk (s.session.slots.set i p) := fun h j => by
      by_cases hj : j = i
      · subst hj; rw [Quad.get_set_same]; exact hd (h j)
      · rw [Quad.get_set_other _ _ hj]; exact h j
    constructor <;> first | exact id | exact hs

theorem does_setTracker (s : State) (x : Tracker) (h1 : x.table = s.tracker.table := by rfl)
    (hq : s.tracker.list.length ≤ 16 → x.list.length ≤ 16 := by exact fun h => h)
    (hc : s.tracker.countsOk → x.countsOk := by exact fun h => h) : Does [.tracker] s (s.setTracker x) where
  keeps p hp := by
    cases p <;> first | exact absurd (by decide) hp | exact rfl | exact h1
  safe := by constructor <;> first | exact id | exact hq | exact hc

theorem does_setEpisodes (s : State) (x : EpisodeUnit)
    (hq : s.episodes.outbox.length ≤ 4 → x.outbox.length ≤ 4 := by exact fun h => h)
    (hc : s.episodes.countsOk → x.countsOk := by exact fun h => h) : Does [.episodes] s (s.setEpisodes x) where
  keeps p hp := by
    cases p <;> first | exact absurd (by decide) hp | exact rfl
  safe := by constructor <;> first | exact id | exact hq | exact hc

theorem does_setHarmonic (s : State) (x : HarmonicEngine)
    (hq : s.harmonic.outbox.length ≤ 2 → x.outbox.length ≤ 2 := by exact fun h => h)
    (hc : s.harmonic.countsOk → x.countsOk := by exact fun h => h) : Does [.harmonic] s (s.setHarmonic x) where
  keeps p hp := by
    cases p <;> first | exact absurd (by decide) hp | exact rfl
  safe := by constructor <;> first | exact id | exact hq | exact hc

/-- The store replaced: the parts that differ are given, the memory keeps its form and the counter its width. -/
theorem does_setStore (ps : List Part) (s : State) (x : Store)
    (hk : ∀ p, p ∉ ps → p.Same s (s.setStore x) := by
      intro p hp
      cases p <;> first | exact absurd (by decide) hp | exact rfl)
    (hm : memWf s.store.mem = true → memWf x.mem = true := by exact fun h => h)
    (hc : s.store.reclaimed ≤ 65535 → x.reclaimed ≤ 65535 := by exact fun h => h) : Does ps s (s.setStore x) where
  keeps := hk
  safe := by constructor <;> first | exact id | exact hm | exact hc

theorem does_setRegistry (s : State) (r : List SiteEntry)
    (hq : s.sites.registry.length ≤ 16 → r.length ≤ 16) (hr : RegistryOk s.sites.registry → RegistryOk r) :
    Does [.registry] s (s.setSites { s.sites with registry := r }) where
  keeps p hp := by
    cases p <;> first | exact absurd (by decide) hp | exact rfl
  safe := by constructor <;> first | exact id | exact hq | exact hr

theorem does_setNotes (s : State) (x : SiteUnit) (h1 : x.registry = s.sites.registry := by rfl)
    (hq : s.sites.notes.length ≤ 64 → x.notes.length ≤ 64) : Does [.notes] s (s.setSites x) where
  keeps p hp := by
    cases p <;> first | exact absurd (by decide) hp | exact rfl | exact h1
  safe := by
    have hl : s.sites.registry.length ≤ 16 → x.registry.length ≤ 16 := fun h => by rw [h1]; exact h
    have hr : RegistryOk s.sites.registry → RegistryOk x.registry := fun h => by rw [h1]; exact h
    constructor <;> first | exact id | exact hq | exact hl | exact hr

theorem does_setPrint (s : State) (x : PrintEngine) (h1 : x.templates = s.print.templates := by rfl)
    (h2 : x.timing = s.print.timing := by rfl) (hq : s.print.queuesOk → x.queuesOk := by exact fun h => h)
    (hc : s.print.underruns ≤ 65535 → x.underruns ≤ 65535 := by exact fun h => h) : Does [.print] s (s.setPrint x) where
  keeps p hp := by
    cases p <;> first | exact absurd (by decide) hp | exact rfl | exact h1 | exact h2
  safe := by constructor <;> first | exact id | exact hq | exact hc

theorem masks_same {x y : NoticeUnit} (h1 : x.masked = y.masked) (h2 : x.mode = y.mode) (h3 : x.polling = y.polling) :
    (x.masked, x.mode, x.polling) = (y.masked, y.mode, y.polling) := by rw [h1, h2, h3]

theorem does_setNotices (s : State) (x : NoticeUnit) (h1 : x.masked = s.notices.masked := by rfl)
    (h2 : x.mode = s.notices.mode := by rfl) (h3 : x.polling = s.notices.polling := by rfl)
    (hn : NoticeOk s.notices → NoticeOk x) : Does [.notices] s (s.setNotices x) where
  keeps p hp := by
    cases p <;> first | exact absurd (by decide) hp | exact rfl | exact masks_same h1 h2 h3
  safe := by constructor <;> first | exact id | exact hn

theorem does_setDport (s : State) (x : DPort) (h1 : x.hold = s.dport.hold := by rfl)
    (hq : s.dport.queuesOk → x.queuesOk := by exact fun h => h) (hc : s.dport.countsOk → x.countsOk := by exact fun h => h) :
    Does [.dport] s (s.setDport x) where
  keeps p hp := by
    cases p <;> first | exact absurd (by decide) hp | exact rfl | exact h1
  safe := by constructor <;> first | exact id | exact hq | exact hc

theorem does_setCmd (s : State) (x : CommandUnit) (hq : s.cmd.queue.length ≤ 4 → x.queue.length ≤ 4 := by exact fun h => h)
    (hc : s.cmd.overflows ≤ 65535 → x.overflows ≤ 65535 := by exact fun h => h) : Does [.cmd] s (s.setCmd x) where
  keeps p hp := by
    cases p <;> first | exact absurd (by decide) hp | exact rfl
  safe := by constructor <;> first | exact id | exact hq | exact hc

/-! ### Counters -/

theorem bump_le {n : Nat} (h : n ≤ 65535) : bump n ≤ 65535 := by unfold bump; split <;> omega

theorem bumpBy_le (n k : Nat) : bumpBy n k ≤ 65535 := by unfold bumpBy; omega

end Sys2Proof.Machine
end

