-- ==== Sys2Proof/Laws/Ports.lean ====
section
/-! SUPPORT. What the operations of the trunk ports and of the notice unit can do (10, R11, R168 to R174). -/

namespace Sys2Proof.Machine

set_option Elab.async false

open Sys2Proof

/-! ### The D-port transmitter -/

@[simp] theorem choose_hold (d : DPort) : d.choose.hold = d.hold := by unfold DPort.choose; split <;> rfl

@[simp] theorem kick_hold (d : DPort) : d.kick.hold = d.hold := by
  unfold DPort.kick; split
  · exact choose_hold d
  · rfl

theorem choose_queues {d : DPort} (h : d.queuesOk) : d.choose.queuesOk := by
  obtain ⟨h1, h2, h3, h4⟩ := h
  unfold DPort.choose DPort.queuesOk
  split <;> simp_all <;> omega

theorem kick_queues {d : DPort} (h : d.queuesOk) : d.kick.queuesOk := by
  unfold DPort.kick; split
  · exact choose_queues h
  · exact h

theorem choose_counts (d : DPort) (h : d.countsOk) : d.choose.countsOk := by
  unfold DPort.choose; split <;> exact h

theorem kick_counts {d : DPort} (h : d.countsOk) : d.kick.countsOk := by
  unfold DPort.kick; split
  · exact choose_counts d h
  · exact h

theorem does_kick (s : State) : Does [.dport] s (s.setDport s.dport.kick) :=
  does_setDport s _ (kick_hold _) kick_queues kick_counts

/-- A frame placed while the reply queue has room. -/
theorem does_placeReplyFrame (f : DownFrame) (s : State) (hr : s.dport.replyRoom = true) :
    Does [.dport] s (placeReplyFrame f s) := by
  refine does_setDport s _ (kick_hold _) (fun h => kick_queues ?_) (fun h => kick_counts h)
  obtain ⟨h1, h2, h3, h4⟩ := h
  simp only [DPort.replyRoom, decide_eq_true_eq] at hr
  exact ⟨h1, by simp only [List.length_append, List.length_singleton]; omega, h3, h4⟩

theorem does_offerPassthrough (f : SampleFrame) (s : State) :
    Does [.dport] s (s.setDport (s.dport.offerPassthrough f)) := by
  unfold DPort.offerPassthrough
  split
  · refine does_setDport s _ (kick_hold _) (fun h => kick_queues ?_) (fun h => kick_counts h)
    obtain ⟨h1, h2, h3, h4⟩ := h
    exact ⟨by simp only [List.length_append, List.length_singleton]; omega, h2, h3, h4⟩
  · exact does_setDport s _ rfl id (fun ⟨a, b, c, d, e⟩ => ⟨a, b, c, d, bump_le e⟩)

/-- Frames placed while the record queue has room for them. -/
theorem does_placeRecords (fs : List RecordFrame) (s : State) (hr : s.dport.record.length + fs.length ≤ 32) :
    Does [.dport] s (s.setDport (s.dport.placeRecords fs)) := by
  refine does_setDport s _ (kick_hold _) (fun h => kick_queues ?_) (fun h => kick_counts h)
  obtain ⟨h1, h2, h3, h4⟩ := h
  exact ⟨h1, h2, h3, by simp only [List.length_append]; omega⟩

/-! ### The U-port transmitter -/

theorem does_upKick (s : State) : Does [.uplink] s (s.setSession s.session.upKick) := by
  unfold SessionUnit.upKick
  split
  · next f rest _ hu =>
    refine does_setUplink s _ rfl rfl (fun h => ?_) id
    obtain ⟨h1, h2⟩ := h
    rw [hu, List.length_cons] at h2
    exact ⟨h1, by show rest.length ≤ 8; omega⟩
  · exact does_setUplink s _

theorem upKick_slots (u : SessionUnit) : u.upKick.slots = u.slots := by unfold SessionUnit.upKick; split <;> rfl

theorem upKick_event (u : SessionUnit) : u.upKick.event = u.event := by unfold SessionUnit.upKick; split <;> rfl

theorem upKick_queues {u : SessionUnit} (h : u.queuesOk) : u.upKick.queuesOk := by
  unfold SessionUnit.upKick
  split
  · next f rest _ hu =>
    obtain ⟨h1, h2⟩ := h
    rw [hu, List.length_cons] at h2
    exact ⟨h1, by show rest.length ≤ 8; omega⟩
  · exact h

theorem upKick_drops {u : SessionUnit} (h : u.dropsOk) : u.upKick.dropsOk := by
  unfold SessionUnit.upKick; split <;> exact h

theorem does_sendUp (f : UpFrame) (s : State) : Does [.uplink] s (sendUp f s) := by
  unfold sendUp SessionUnit.sendUp
  split
  · next hr =>
    simp only [SessionUnit.upRoom, decide_eq_true_eq] at hr
    refine does_setUplink s _ (upKick_slots _) (upKick_event _) (fun h => upKick_queues ?_) (fun h => upKick_drops h)
    exact ⟨h.1, by simp only [List.length_append, List.length_singleton]; omega⟩
  · exact does_setUplink s _ rfl rfl id (fun ⟨a, b, c, d, e⟩ => ⟨a, b, c, bump_le d, e⟩)

/-! ### Notices -/

theorem does_judgeOffer (s : State) : Does [.notices, .dport] s (judgeOffer s) := by
  unfold judgeOffer
  dsimp only
  split
  · exact Does.refl _ s
  · next hp =>
    simp only [Bool.not_eq_true] at hp
    have off {x : NoticeUnit} (h1 : x.mode = s.notices.mode) (h2 : x.service = s.notices.service)
        (h3 : x.polling = s.notices.polling) : NoticeOk s.notices → NoticeOk x := fun h =>
      ⟨by rw [h1, h2]; exact h.fixed, by rw [h1, h2]; exact h.rotating, by rw [h3, hp]; intro h; cases h⟩
    split
    · exact (does_setNotices s _ (hn := by exact off rfl rfl rfl)).on
    · split
      · exact Does.refl _ s
      · split
        · next hr =>
          exact (does_setNotices s _ (hn := by exact off rfl rfl rfl)).andThen (does_placeReplyFrame _ _ hr)
        · exact (does_setNotices s _ (hn := by exact off rfl rfl rfl)).andThen (does_setDport _ _)

theorem does_setRequests (s : State) (r : BitVec 12) :
    Does [.notices, .dport] s (judgeOffer (s.setNotices { s.notices with requests := r })) :=
  (does_setNotices s _ (hn := by exact fun h => ⟨h.fixed, h.rotating, h.polling⟩)).andThen (does_judgeOffer _)

theorem does_raise (k : Fin 12) (s : State) : Does [.notices, .dport] s (raise k s) := does_setRequests s _

theorem does_follow (k : Fin 12) (b : Bool) (s : State) : Does [.notices, .dport] s (follow k b s) := by
  unfold follow
  split
  · exact Does.refl _ s
  · split
    · exact does_raise k s
    · exact does_setRequests s _

/-- An offer judged leaves the requests as they are. -/
@[simp] theorem judgeOffer_requests (s : State) : (judgeOffer s).notices.requests = s.notices.requests := by
  unfold judgeOffer
  dsimp only
  repeat' split
  all_goals rfl

/-- A source added is held. -/
theorem hasSource_addSource (set : BitVec 12) (k : Fin 12) : hasSource (addSource set k) k = true := by
  have hk := k.isLt
  simp [hasSource, addSource, hk]

/-- A source removed is not held. -/
theorem hasSource_removeSource (set : BitVec 12) (k : Fin 12) : hasSource (removeSource set k) k = false := by
  have hk := k.isLt
  simp [hasSource, removeSource, hk]

/-- A level source's request agrees with its condition once it has been followed (R170). -/
theorem hasSource_follow (k : Fin 12) (b : Bool) (s : State) : hasSource (follow k b s).notices.requests k = b := by
  unfold follow
  split
  · assumption
  · cases b
    · simp [hasSource_removeSource]
    · simp [raise, hasSource_addSource]

theorem does_followStoreLow (s : State) : Does [.notices, .dport] s (followStoreLow s) := does_follow _ _ s

theorem does_followCascade (s : State) : Does [.notices, .dport] s (followCascade s) := does_follow _ _ s

theorem does_followStall (s : State) : Does [.notices, .dport] s (followStall s) := does_follow _ _ s

end Sys2Proof.Machine
end

