-- ==== Sys2Proof/Laws/Records.lean ====
section
/-! SUPPORT. What the operations of the record store's directory can do (R102 to R111, R127). -/

namespace Sys2Proof.Machine

set_option Elab.async false

open Sys2Proof

/-- What the operations of the directory may change. -/
abbrev recordParts : List Part := [.notices, .dport, .directory, .registry]

/-! ### The site registry -/

/-- A registry whose entries keep their ids, states and names keeps its form. -/
theorem registryOk_map {r : List SiteEntry} {f : SiteEntry → SiteEntry}
    (hf : ∀ e, (f e).id = e.id ∧ (f e).state = e.state ∧ (f e).name = e.name) (h : RegistryOk r) :
    RegistryOk (r.map f) where
  once := by
    have hm : (r.map f).map (fun e => e.id) = r.map (fun e => e.id) := by
      rw [List.map_map]; exact List.map_congr_left (fun e _ => (hf e).1)
    rw [hm]; exact h.once
  range := fun e he => by
    obtain ⟨d, hd, rfl⟩ := List.mem_map.mp he
    rw [(hf d).1]; exact h.range d hd
  oneOpen := by
    have hl : ((r.map f).filter (fun e => e.state == .opened)) =
        (r.filter (fun e => e.state == .opened)).map f := by
      rw [List.filter_map]
      congr 1
      exact List.filter_congr (fun e _ => by simp only [Function.comp_apply, (hf e).2.1])
    rw [hl, List.length_map]; exact h.oneOpen
  name := fun e he => by
    obtain ⟨d, hd, rfl⟩ := List.mem_map.mp he
    rw [(hf d).2.2]; exact h.name d hd

theorem does_mapRegistry (s : State) (f : SiteEntry → SiteEntry)
    (hf : ∀ e, (f e).id = e.id ∧ (f e).state = e.state ∧ (f e).name = e.name) :
    Does [.registry] s (s.setSites { s.sites with registry := s.sites.registry.map f }) :=
  does_setRegistry s _ (fun h => by rwa [List.length_map]) (registryOk_map hf)

theorem does_updateSite (id : Nat) (f : SiteEntry → SiteEntry) (s : State)
    (hf : ∀ e, (f e).id = e.id ∧ (f e).state = e.state ∧ (f e).name = e.name := by
      exact fun _ => ⟨rfl, rfl, rfl⟩) : Does [.registry] s (updateSite id f s) :=
  does_mapRegistry s _ (fun e => by
    by_cases he : e.id = id
    · rw [if_pos he]; exact hf e
    · rw [if_neg he]; exact ⟨rfl, rfl, rfl⟩)

/-! ### Entries, pins and holds -/

theorem does_updateEntry (id : Nat) (f : DirEntry → DirEntry) (s : State) : Does [.directory] s (updateEntry id f s) :=
  does_setStore _ s _

theorem does_placeHold (id : Nat) (s : State) : Does [.directory] s (placeHold id s) := does_updateEntry _ _ s

theorem does_removeHold (id : Nat) (s : State) : Does [.directory] s (removeHold id s) := does_updateEntry _ _ s

theorem does_placePin (id : Nat) (s : State) : Does [.directory] s (placePin id s) := does_updateEntry _ _ s

theorem does_removePin (id : Nat) (s : State) : Does [.directory] s (removePin id s) := does_updateEntry _ _ s

theorem does_removeEntry (e : DirEntry) (s : State) : Does recordParts s (removeEntry e s) :=
  ((does_setStore [.directory] s _).andThen (rs := recordParts) (does_updateSite e.site SiteEntry.dropRecord _)).andThen
    (does_followStoreLow _)

/-! ### Requests -/

/-- STORE_LOW followed leaves the store as it is. -/
theorem store_followStoreLow (s : State) : (followStoreLow s).store = s.store := by
  unfold followStoreLow follow raise judgeOffer
  dsimp only
  repeat' split
  all_goals rfl

/-- STORE_LOW agrees with its condition once it has been followed (R111). -/
theorem hasSource_storeLow (s : State) : hasSource (followStoreLow s).notices.requests 4 = storeLow (followStoreLow s) := by
  have h := (does_followStoreLow s).keeps
  have he : (followStoreLow s).episodes = s.episodes := h .episodes (by decide)
  have hh : (followStoreLow s).harmonic = s.harmonic := h .harmonic (by decide)
  rw [storeLow, freeCount, claimed, store_followStoreLow, he, hh]
  exact hasSource_follow 4 (storeLow s) s

theorem does_reclaimStep (e : DirEntry) (s : State) : Does recordParts s (reclaimStep e s) :=
  (does_setStore [.directory] s _ (hc := by exact bump_le)).andThen (does_removeEntry e _)

/-- What a step of reclaim does (R109). -/
theorem reclaimStep_reclaimed (e : DirEntry) (s : State) : Reclaimed e s (reclaimStep e s) where
  dir := by
    rw [reclaimStep, removeEntry, store_followStoreLow]
    exact List.filter_congr (fun d _ => by by_cases h : d.id = e.id <;> simp [h])
  free := by rw [reclaimStep, removeEntry, store_followStoreLow]; rfl
  next := by rw [reclaimStep, removeEntry, store_followStoreLow]; rfl
  counted := by rw [reclaimStep, removeEntry, store_followStoreLow]; rfl
  registry := (does_followStoreLow _).keeps .registry (by decide)
  low := hasSource_storeLow _
  rest := fun p hp => (does_reclaimStep e s).keeps p (by revert hp; cases p <;> decide)

theorem does_request (ok : State → Bool) (n : Nat) (s : State) : Does recordParts s (request ok n s).1 := by
  induction n generalizing s with
  | zero => exact Does.refl _ s
  | succ n ih =>
    unfold request
    split
    · exact Does.refl _ s
    · split
      · exact Does.refl _ s
      · exact (does_reclaimStep _ s).trans (ih _)

theorem does_requestAll (ok : State → Bool) (s : State) : Does recordParts s (requestAll ok s).1 := does_request ok _ s

theorem does_requestRecord (kept p : Nat) (s : State) : Does recordParts s (requestRecord kept p s).1 := by
  unfold requestRecord
  split
  · have h := does_requestAll placeFree s
    split
    · next s1 hs => rw [hs] at h; exact h
    · next s1 hs => rw [hs] at h; exact h.trans (does_requestAll _ _)
  · exact Does.refl _ s

theorem does_takePage (s : State) : Does [.directory] s (takePage s).1 := by
  unfold takePage
  split
  · exact Does.refl _ s
  · exact does_setStore _ s _

theorem does_createCapture (site : Nat) (s : State) : Does recordParts s (createCapture site s).1 := by
  unfold createCapture
  have h := does_requestRecord 8 1 s
  split
  · next s1 hs => rw [hs] at h; exact h
  · next s1 hs =>
    rw [hs] at h
    have h2 := does_takePage s1
    split
    · next s2 hs2 => rw [hs2] at h2; exact h.andThen h2
    · next s2 p hs2 =>
      rw [hs2] at h2
      exact (h.andThen (rs := recordParts) h2).trans
        (((does_setStore [.directory] s2 _).andThen (rs := recordParts)
          (does_updateSite site SiteEntry.addRecord _)).andThen (does_followStoreLow _))

theorem does_growCapture (id : Nat) (s : State) : Does recordParts s (growCapture id s).1 := by
  unfold growCapture
  have h := does_requestAll (pagesAllowed 8 1) s
  split
  · next s1 hs => rw [hs] at h; exact h
  · next s1 hs =>
    rw [hs] at h
    have h2 := does_takePage s1
    split
    · next s2 hs2 => rw [hs2] at h2; exact h.andThen h2
    · next s2 p hs2 =>
      rw [hs2] at h2
      exact (h.andThen (rs := recordParts) h2).trans
        ((does_updateEntry id _ s2).andThen (does_followStoreLow _))

theorem does_admission (kept site length : Nat) (s : State) : Does recordParts s (admission kept site length s).1 := by
  unfold admission
  split
  · exact Does.refl _ s
  · have h := does_requestRecord kept (pagesFor length) s
    split
    · next s1 hs => rw [hs] at h; exact h
    · next s1 hs => rw [hs] at h; exact h.andThen (does_updateSite site _ _)

theorem does_fileRecord (kind : RecordKind) (site length start : Nat) (flags : Byte) (a : Admitted) (id : Nat)
    (s : State) : Does [.directory, .registry] s (fileRecord kind site length start flags a id s) :=
  (does_setStore [.directory] s _).andThen (does_updateSite site _ _)

end Sys2Proof.Machine
end

