-- ==== Sys2Proof/Laws/Blocks.lean ====
section
/-! SUPPORT. What the operations of the capture unit, the detector, the episode unit, the harmonic engine and the tracker can
do (02 to 05). -/

namespace Sys2Proof.Machine

set_option Elab.async false

open Sys2Proof

/-! ### The channel event machine -/

/-- What counting a close does to an event of a kind (R46). -/
theorem countClose_counted (k : LaneClose) (nc : Nat) (code : Option Nat) (kind : EventKind) (e : EventEntry) :
    CloseCounted k nc code false kind e (countClose k nc code { e with kind := kind }) := by
  cases code with
  | none => constructor <;> simp [countClose]
  | some r =>
    by_cases h : replacesExtreme kind r e.extreme = true
    · have h' : kind = .swell ∧ e.extreme < r ∨ kind ≠ .swell ∧ r < e.extreme := by
        cases kind <;> simpa [replacesExtreme] using h
      constructor <;> simp only [countClose, takeExtreme, h, if_true, Bool.or_false]
      · rintro r' hr -
        cases hr
        refine ⟨rfl, fun hn => ?_⟩
        simp only [permilleOf, clamp, if_neg (show nc ≠ 0 by omega)]
        split <;> omega
      · exact fun hr => absurd h' (hr r rfl)
    · have h' : ¬(kind = .swell ∧ e.extreme < r ∨ kind ≠ .swell ∧ r < e.extreme) := by
        cases kind <;> simpa [replacesExtreme] using h
      constructor <;> simp only [countClose, takeExtreme, h, Bool.or_false] <;> simp
      exact fun hr => absurd hr h'

/-! ### The capture unit -/

/-- What the capture unit may change at a report of the episode unit. -/
abbrev captureParts : List Part := [.notices, .dport, .directory, .registry, .capture, .episodes]

theorem does_startCapture (i : Slot) (site : Nat) (episode forced : Option Nat) (s : State) :
    Does [.notices, .dport, .directory, .registry, .capture] s (startCapture i site episode forced s).1 := by
  unfold startCapture
  have h := does_createCapture site s
  split
  · next s1 hs => rw [hs] at h; exact h.on
  · next s1 id hs => rw [hs] at h; exact h.andThen (does_setCap s1 i _)

theorem does_addCaptureId (id : Nat) (s : State) : Does [.episodes] s (addCaptureId id s) := by
  unfold addCaptureId
  split
  · exact does_setEpisodes s _
  · exact Does.refl _ s

theorem does_setNoCapture (s : State) : Does [.episodes] s (setNoCapture s) := by
  unfold setNoCapture
  split
  · exact does_setEpisodes s _
  · exact Does.refl _ s

theorem does_startForEpisode (i : Slot) (site number : Nat) (s : State) :
    Does captureParts s (startForEpisode i site number s) := by
  unfold startForEpisode
  have h := does_startCapture i site (some number) none s
  split
  · next s1 hs => rw [hs] at h; exact h.andThen (does_setNoCapture s1)
  · next s1 id hs => rw [hs] at h; exact h.andThen (does_addCaptureId id s1)

theorem does_joinEpisode (i : Slot) (number : Nat) (s : State) :
    Does [.capture, .episodes] s (joinEpisode i number s) := by
  unfold joinEpisode
  dsimp only
  split
  · split
    · exact (does_setCap s i _).andThen (does_addCaptureId _ _)
    · exact (does_setCap s i _).on
  · exact (does_setCap s i _).on

theorem does_episodeOpenedOn (site number : Nat) (s : State) (i : Slot) :
    Does captureParts s (episodeOpenedOn site number s i) := by
  unfold episodeOpenedOn
  dsimp only
  split
  · split
    · exact does_startForEpisode i site number s
    · exact (does_setCap s i _).on
    · split
      · exact (does_setCap s i _).on
      · split
        · exact (does_joinEpisode i number s).on
        · exact Does.refl _ s
    · exact (does_joinEpisode i number s).on
    · split
      · exact (does_setCap s i _).on
      · exact Does.refl _ s
    · split
      · exact (does_setCap s i _).on
      · exact Does.refl _ s
  · exact Does.refl _ s

theorem does_episodeOpened (site number : Nat) (s : State) : Does captureParts s (episodeOpened site number s) :=
  Does.foldl (does_episodeOpenedOn site number) _ s

theorem does_mapCaps (f : State → Slot → CaptureSlot) (s : State) :
    Does [.capture] s (indexes.foldl (fun s i => s.setCap i (f s i)) s) :=
  Does.foldl (fun s i => does_setCap s i _) _ s

theorem does_episodeClosed (number : Nat) (s : State) : Does [.capture] s (episodeClosed number s) := does_mapCaps _ s

theorem does_splitOn (old new : Nat) (s : State) (i : Slot) : Does [.capture, .episodes] s (splitOn old new s i) := by
  unfold splitOn
  dsimp only
  split
  · split
    · exact (does_setCap s i _).on
    · split
      · split
        · exact (does_setCap s i _).andThen (does_addCaptureId _ _)
        · exact (does_setCap s i _).on
      · exact (does_setCap s i _).on
  · split
    · exact (does_setCap s i _).on
    · exact Does.refl _ s

theorem does_episodeSplit (old new : Nat) (s : State) : Does [.capture, .episodes] s (episodeSplit old new s) :=
  Does.foldl (does_splitOn old new) _ s

theorem does_cutCaptures (s : State) : Does [.capture] s (cutCaptures s) := does_mapCaps _ s

theorem does_endingToEmpty (i : Slot) (s : State) :
    Does [.slots, .event, .notices, .dport] s (endingToEmpty i s) := by
  unfold endingToEmpty
  dsimp only
  split
  · exact ((does_setSlot s i _).andThen (rs := [.slots, .event]) (does_setEvent _ _)).andThen (does_raise 6 _)
  · exact Does.refl _ s

theorem does_resolvePending (i : Slot) (s : State) : Does captureParts s (resolvePending i s) := by
  unfold resolvePending
  dsimp only
  split
  · exact Does.refl _ s
  · split
    · split
      · exact (does_setCap s i _).andThen (does_startForEpisode _ _ _ _)
      · exact (does_setCap s i _).on
    · exact (does_setCap s i _).on

theorem does_setMem (s : State) (m : List Host.Cell) (h : memWf s.store.mem = true → memWf m = true) :
    Does [.memory] s (s.setStore { s.store with mem := m }) := does_setStore _ s _ (hm := h)

/-- What the completion of a capture may change. -/
abbrev completeParts : List Part :=
  [.notices, .dport, .directory, .registry, .capture, .episodes, .memory, .slots, .event]

theorem does_completeCapture (i : Slot) (s : State) : Does completeParts s (completeCapture i s) := by
  unfold completeCapture
  dsimp only
  split
  · exact Does.refl _ s
  · split
    · exact Does.refl _ s
    · exact ((((does_setMem s _ (writeRecord_wf _ _ _)).andThen (rs := completeParts)
        (does_updateEntry _ _ _)).andThen (rs := completeParts) (does_raise 2 _)).andThen (rs := completeParts)
        (does_setCap _ i _)).trans ((does_endingToEmpty i _).andThen (does_resolvePending i _))

/-! ### The detector and the episode unit -/

theorem outboxEpisode_length (r : EpisodeRecord) (u : EpisodeUnit) (h : u.outbox.length ≤ 4) :
    (outboxEpisode r u).outbox.length ≤ 4 := by
  unfold outboxEpisode
  split
  · simp only [List.length_append, List.length_singleton]; omega
  · exact h

theorem outboxEpisode_counts (r : EpisodeRecord) (u : EpisodeUnit) (h : u.countsOk) :
    (outboxEpisode r u).countsOk := by
  unfold outboxEpisode
  split
  · exact h
  · exact ⟨bump_le h.1, h.2⟩

theorem does_fileEpisode (e : Episode) (s : State) : Does [.episodes] s (fileEpisode e s) :=
  does_setEpisodes s _ (outboxEpisode_length _ _) (outboxEpisode_counts _ _)

theorem does_noEpisode (s : State) : Does [.episodes] s (noEpisode s) := does_setEpisodes s _

/-- What the close of an episode may change. -/
abbrev closeParts : List Part := [.notices, .dport, .capture, .episodes]

theorem does_closeEpisode (s : State) : Does closeParts s (closeEpisode s) := by
  unfold closeEpisode
  split
  · exact Does.refl _ s
  · exact (((does_fileEpisode _ s).andThen (rs := closeParts) (does_episodeClosed _ _)).andThen (rs := closeParts)
      (does_raise 1 _)).andThen (does_noEpisode _)

theorem does_collectEvent (s : State) (ev : EventEntry) : Does [.episodes, .detector] s (collectEvent s ev) := by
  unfold collectEvent
  split
  · exact Does.refl _ s
  · exact (does_setEpisodes s _).andThen (does_setChan _ _ _)

theorem does_countOut (ev : EventEntry) (listed : Bool) (s : State) : Does [.episodes] s (countOut ev listed s) := by
  unfold countOut
  split
  · exact Does.refl _ s
  · exact does_setEpisodes s _

theorem does_closeIfEmpty (s : State) : Does closeParts s (closeIfEmpty s) := by
  unfold closeIfEmpty
  split
  · exact Does.refl _ s
  · split
    · exact does_closeEpisode s
    · exact Does.refl _ s

theorem does_closeEventOf (f : EventFlags → EventFlags) (s : State) (c : Chan) :
    Does [.episodes, .detector] s (closeEventOf f s c) := by
  unfold closeEventOf
  split
  · exact Does.refl _ s
  · exact (does_setChan s c _).andThen (does_countOut _ _ _)

theorem does_installEpisode (site : SiteEntry) (first : Nat) (flags : EpisodeFlags) (s : State) :
    Does [.episodes, .registry] s (installEpisode site first flags s) :=
  (does_setEpisodes s _).andThen (does_updateSite site.id _ _)

/-- What the episode unit may change at a lane's close. -/
abbrev episodeParts : List Part := [.notices, .dport, .directory, .registry, .capture, .episodes, .detector]

theorem does_openEpisode (number : Nat) (events : List EventEntry) (s : State) :
    Does episodeParts s (openEpisode number events s) := by
  unfold openEpisode
  split
  · exact Does.refl _ s
  · exact (((does_installEpisode _ _ _ s).andThen (rs := episodeParts)
      (Does.foldl does_collectEvent events _)).andThen (rs := episodeParts) (does_episodeOpened _ _ _)).andThen
      (does_raise 0 _)

theorem does_reopen (s : State) (x : EventEntry × EventState) : Does [.episodes, .detector] s (reopen s x) :=
  (does_setChan s _ _).andThen (does_collectEvent _ _)

theorem does_splitEpisode (number : Nat) (s : State) : Does episodeParts s (splitEpisode number s) := by
  unfold splitEpisode
  dsimp only
  split
  · next e site _ _ =>
    refine Does.trans ?_ (((does_installEpisode _ _ _ _).andThen (rs := episodeParts)
      (Does.foldl does_reopen _ _)).andThen (rs := episodeParts) ((does_episodeSplit _ _ _).andThen
        (rs := episodeParts) (does_raise 0 _)))
    have h : Does episodeParts s (e.openChannels.foldl (closeEventOf id) s) :=
      (Does.foldl (does_closeEventOf _) _ s).on
    refine h.trans ?_
    split
    · exact ((does_fileEpisode _ _).andThen (rs := episodeParts) (does_raise 1 _)).andThen (does_noEpisode _)
    · exact Does.refl _ _
  · exact Does.refl _ s

theorem does_splitIfDue (number : Nat) (s : State) : Does episodeParts s (splitIfDue number s) := by
  unfold splitIfDue
  split
  · exact Does.refl _ s
  · split
    · exact does_splitEpisode number s
    · exact Does.refl _ s

theorem does_countOutcome (s : State) (o : ChannelOutcome) : Does [.episodes] s (countOutcome s o) := by
  unfold countOutcome
  split
  · exact does_countOut _ _ s
  · exact Does.refl _ s
  · exact Does.refl _ s

theorem does_episodeTakeClose (number : Nat) (outs : List ChannelOutcome) (s : State) :
    Does episodeParts s (episodeTakeClose number outs s) := by
  unfold episodeTakeClose
  dsimp only
  refine Does.trans ?_ (((Does.foldl does_countOutcome outs _).andThen (rs := episodeParts)
    (does_closeIfEmpty _)).andThen (does_splitIfDue number _))
  split
  · exact Does.refl _ s
  · split
    · exact does_openEpisode _ _ s
    · exact (Does.foldl does_collectEvent _ s).on

theorem does_detectorTakeClose (i : Slot) (k : LaneClose) (s : State) :
    Does [.detector] s (detectorTakeClose i k s).1 := by
  have h (l : List (Fin 4)) (a : State × List ChannelOutcome × Bool) :
      Does [.detector] a.1 (l.foldl (detectorTakeChannel k (rmsCodes k) i) a).1 := by
    induction l generalizing a with
    | nil => exact Does.refl _ _
    | cons x rest ih => exact Does.trans (does_setChan a.1 (channel i x) _) (ih (detectorTakeChannel k (rmsCodes k) i a x))
  exact h indexes (s, [], false)

theorem does_detectorSessionEnd (i : Slot) (s : State) :
    Does [.notices, .dport, .capture, .episodes, .detector] s (detectorSessionEnd i s) :=
  ((Does.foldl (does_closeEventOf _) _ s).andThen (rs := [.notices, .dport, .capture, .episodes, .detector])
    (Does.foldl (fun s c => does_setChan s c _) _ _)).andThen (does_closeIfEmpty _)

theorem does_cutEpisode (s : State) : Does [.notices, .dport, .capture, .episodes, .detector] s (cutEpisode s) := by
  unfold cutEpisode
  dsimp only
  split
  · exact Does.refl _ s
  · next e _ =>
    have h : Does [.notices, .dport, .capture, .episodes, .detector] s
        (e.openChannels.foldl (closeEventOf (fun f => { f with cut := true })) s) :=
      (Does.foldl (does_closeEventOf _) _ s).on
    refine h.trans ?_
    split
    · exact Does.refl _ _
    · exact (does_setEpisodes _ _).andThen (does_closeEpisode _)

/-! ### The harmonic engine -/

/-- The records the engine has built and its counters. -/
def HarmonicEngine.filed (h : HarmonicEngine) : List HarmonicRecord × Nat × Nat := (h.outbox, h.late, h.lost)

/-- An engine changed with its records and counters kept. -/
theorem does_engine (s : State) (x : HarmonicEngine) (h : x.filed = s.harmonic.filed := by rfl) :
    Does [.harmonic] s (s.setHarmonic x) := by
  simp only [HarmonicEngine.filed, Prod.mk.injEq] at h
  refine does_setHarmonic s x (fun k => ?_) (fun k => ?_)
  · rw [h.1]; exact k
  · exact ⟨by rw [h.2.1]; exact k.1, by rw [h.2.2]; exact k.2⟩

theorem filed_foldl {α : Type} {f : HarmonicEngine → α → HarmonicEngine} (hf : ∀ h a, (f h a).filed = h.filed)
    (l : List α) (h : HarmonicEngine) : (l.foldl f h).filed = h.filed := by
  induction l generalizing h with
  | nil => rfl
  | cons a rest ih => rw [List.foldl_cons, ih, hf]

@[simp] theorem mapInterval_filed (p : IntervalPlace) (f : Interval → Interval) (h : HarmonicEngine) :
    (h.mapInterval p f).filed = h.filed := by cases p <;> rfl

@[simp] theorem mapWindow_filed (b : Nat) (f : Window → Window) (h : HarmonicEngine) :
    (h.mapWindow b f).filed = h.filed := rfl

@[simp] theorem markDone_filed (b : Nat) (i : Slot) (h : HarmonicEngine) : (h.markDone b i).filed = h.filed := rfl

theorem finishVoid_filed (b : Nat) (h : HarmonicEngine) (i : Slot) : (finishVoid b h i).filed = h.filed := by
  unfold finishVoid
  split
  · rfl
  · split
    · rfl
    · exact mapInterval_filed _ _ h

theorem voidInterval_filed (p : IntervalPlace) (h : HarmonicEngine) : (voidInterval p h).filed = h.filed :=
  filed_foldl (fun h b => filed_foldl (finishVoid_filed b) _ h) _ h

theorem removeOpenWindow_filed (h : HarmonicEngine) : (removeOpenWindow h).filed = h.filed := by
  unfold removeOpenWindow
  split
  · rfl
  · refine filed_foldl (fun h i => ?_) indexes h
    split
    · exact mapInterval_filed _ _ h
    · rfl

theorem applyStagedTables_filed (h : HarmonicEngine) : (applyStagedTables h).filed = h.filed := by
  unfold applyStagedTables
  split <;> rfl

theorem beginInterval_filed (site : Nat) (b : Boundary) (h : HarmonicEngine) :
    (beginInterval site b h).filed = h.filed := by
  unfold beginInterval
  split <;> rfl

theorem addWindow_filed (b : Boundary) (active : Slot → Bool) (h : HarmonicEngine) :
    (addWindow b active h).filed = h.filed := by
  unfold addWindow
  refine filed_foldl (fun h i => ?_) indexes _
  dsimp only
  repeat' split
  all_goals first | rfl | exact finishVoid_filed _ h i

/-- What the engine may change as it takes boundaries, closes and session ends. -/
abbrev engineParts : List Part := [.harmonic, .registry]

theorem does_fileInterval (v : Interval) (s : State) : Does engineParts s (fileInterval v s) := by
  refine (does_setHarmonic s _ (fun h => ?_) (fun h => ?_)).andThen (does_updateSite v.site _ _)
  · unfold outboxHarmonic
    split
    · simp only [List.length_append, List.length_singleton]; omega
    · exact h
  · unfold outboxHarmonic
    split
    · exact h
    · exact ⟨h.1, bump_le h.2⟩

theorem does_fileEnding (s : State) : Does engineParts s (fileEnding s) := by
  unfold fileEnding
  split
  · exact Does.refl _ s
  · exact (does_engine s _).andThen (does_fileInterval _ _)

theorem does_settle (s : State) : Does engineParts s (settle s) := by
  unfold settle
  dsimp only
  split
  · exact (does_engine s _).on
  · exact (does_engine s _).andThen (does_fileEnding _)

theorem does_completeEnding (s : State) : Does engineParts s (completeEnding s) :=
  (does_engine s _ (h := by exact voidInterval_filed _ _)).andThen (does_fileEnding _)

theorem does_endCurrent (f : HarmonicFlags → HarmonicFlags) (s : State) : Does engineParts s (endCurrent f s) := by
  unfold endCurrent
  split
  · exact Does.refl _ s
  · exact (does_completeEnding s).trans ((does_engine _ _).andThen (does_settle _))

theorem does_cutInterval (s : State) : Does engineParts s (cutInterval s) := by
  unfold cutInterval
  dsimp only
  refine Does.trans ((does_engine s _ (h := by exact removeOpenWindow_filed _)).andThen (does_completeEnding _)) ?_
  split
  · exact Does.refl _ _
  · split
    · exact (does_engine _ _ (h := by exact voidInterval_filed _ _)).on
    · split
      · exact (does_engine _ _ (h := by exact voidInterval_filed _ _)).on
      · exact (does_engine _ _ (h := by exact voidInterval_filed _ _)).andThen (does_fileInterval _ _)

theorem does_lagCompletion (dropped : Nat) (s : State) : Does engineParts s (lagCompletion dropped s) :=
  (does_engine s _ (h := by exact filed_foldl (fun h b => filed_foldl (finishVoid_filed b) _ h) _ _)).andThen (does_settle _)

theorem does_countFrequency (s : State) : Does [.harmonic] s (countFrequency s) := by
  unfold countFrequency
  split
  · split
    · exact does_engine s _
    · exact Does.refl _ s
  · exact Does.refl _ s

theorem does_windowBoundary (b : Boundary) (length : Nat) (s : State) : Does engineParts s (windowBoundary b length s) := by
  unfold windowBoundary
  dsimp only
  have h (p : IntervalPlace) (f : Interval → Interval) (n : Nat) (g : Window → Window) :
      Does engineParts s (settle (s.setHarmonic ((s.harmonic.mapWindow n g).mapInterval p f))) :=
    (does_engine s _ (h := by exact (mapInterval_filed _ _ _).trans rfl)).andThen (does_settle _)
  split
  · exact Does.refl _ s
  · split
    · split
      · split
        · exact (h _ _ _ _).trans (does_endCurrent _ _)
        · exact h _ _ _ _
      · exact h _ _ _ _
    · exact (does_engine s _).on

theorem does_windowStart (b : Boundary) (s : State) : Does engineParts s (windowStart b s) := by
  unfold windowStart
  dsimp only
  split
  · exact Does.refl _ s
  · split
    · refine Does.trans ?_ ((does_engine _ _ (h := by exact (addWindow_filed _ _ _).trans (beginInterval_filed _ _ _))).on)
      split
      · exact (does_engine s _ (h := by exact applyStagedTables_filed _)).andThen (does_endCurrent _ _)
      · exact Does.refl _ s
    · exact Does.refl _ s

theorem does_harmonicBoundary (b : Boundary) (length : Nat) (dropped : Option Nat) (s : State) :
    Does engineParts s (harmonicBoundary b length dropped s) := by
  unfold harmonicBoundary
  dsimp only
  refine Does.trans ?_ (((does_countFrequency _).andThen (rs := engineParts) (does_windowBoundary b length _)).trans
    (does_windowStart b _))
  split
  · exact does_lagCompletion _ s
  · exact Does.refl _ s

theorem harmonicInstant_filed (i : Slot) (x : Option SampleSet) (h : HarmonicEngine) :
    (harmonicInstant i x h).filed = h.filed := by
  unfold harmonicInstant
  split <;> rfl

theorem does_harmonicLaneStart (i : Slot) (last : Nat) (s : State) : Does engineParts s (harmonicLaneStart i last s) :=
  (does_engine s _ (h := by exact (filed_foldl (fun h b => finishVoid_filed b h i) _ _).trans rfl)).andThen (does_settle _)

theorem does_harmonicSessionEnd (i : Slot) (s : State) : Does engineParts s (harmonicSessionEnd i s) := by
  unfold harmonicSessionEnd
  dsimp only
  have h : Does engineParts s (settle (s.setHarmonic
      { ((s.harmonic.schedule.map (fun w => w.start)).foldl (fun h b => finishVoid b h i) s.harmonic) with
        lanes := ((s.harmonic.schedule.map (fun w => w.start)).foldl (fun h b => finishVoid b h i)
          s.harmonic).lanes.set i none })) :=
    (does_engine s _ (h := by exact filed_foldl (fun h b => finishVoid_filed b h i) _ _)).andThen (does_settle _)
  split
  · split
    · exact h.trans (does_cutInterval _)
    · exact h
  · exact h

theorem closeLaneWindow_filed (i : Slot) (k : LaneClose) (o : Bool) (l : HarmonicLane) (h : HarmonicEngine) :
    (closeLaneWindow i k o l h).1.filed = h.filed := by
  unfold closeLaneWindow
  split
  · rfl
  · split
    · rfl
    · dsimp only
      split
      · exact mapInterval_filed _ _ h
      · rfl

theorem does_harmonicClose (i : Slot) (k : LaneClose) (o : Bool) (s : State) :
    Does engineParts s (harmonicClose i k o s) := by
  unfold harmonicClose
  split
  · exact Does.refl _ s
  · exact (does_engine s _ (h := by exact closeLaneWindow_filed i k o _ s.harmonic)).andThen (does_settle _)

/-! ### The tracker -/

theorem appendBoundary_length (list : List Boundary) (b : Boundary) (h : list.length ≤ 16) :
    (appendBoundary list b).1.length ≤ 16 := by
  unfold appendBoundary
  split
  · simp only [List.length_append, List.length_singleton]; omega
  · simp only [List.length_append, List.length_tail, List.length_singleton]; omega

/-- What the tracker may change as it makes a boundary. -/
abbrev boundaryParts : List Part := [.tracker, .harmonic, .registry]

theorem does_makeBoundary (n : Nat) (d : Direction) (after : TrackerMode) (length : Nat) (s : State) :
    Does boundaryParts s (makeBoundary n d after length s).1 :=
  (does_setTracker s _ (hq := appendBoundary_length _ _)).andThen (does_harmonicBoundary _ _ _ _)

theorem does_decideFree (s : State) (n : Nat) : Does boundaryParts s (decideFree s n) := by
  unfold decideFree
  dsimp only
  split
  · exact does_makeBoundary _ _ _ _ s
  · exact (does_setTracker s _).on

theorem does_decideRange (count n : Nat) (s : State) : Does boundaryParts s (decideRange count n s) := by
  induction count generalizing n s with
  | zero => exact Does.refl _ s
  | succ k ih => exact (does_decideFree s n).trans (ih _ _)

theorem does_enterFree (s : State) : Does boundaryParts s (enterFree s) :=
  (does_setTracker s _).andThen (does_decideRange _ _ _)

/-- What a handover may change. -/
abbrev trackerParts : List Part := [.notices, .dport, .tracker, .harmonic, .registry]

theorem does_recordChange (reason : ChangeReason) (previous next : Option Chan) (s : State) :
    Does [.tracker, .notices, .dport] s (recordChange reason previous next s) :=
  (does_setTracker s _).andThen (does_raise 5 _)

theorem does_acquire (s : State) : Does [.tracker, .notices, .dport] s (acquire s) := by
  unfold acquire
  split
  · exact (does_setTracker s _).andThen (does_recordChange _ _ _ _)
  · exact Does.refl _ s

theorem does_handover (reason : ChangeReason) (s : State) : Does trackerParts s (handover reason s) := by
  unfold handover
  dsimp only
  refine Does.trans (t := if s.tracker.mode = .free then s else enterFree s) ?_
    ((does_setTracker _ _).andThen (does_recordChange _ _ _ _))
  split
  · exact Does.refl _ s
  · exact (does_enterFree s).on

theorem does_judgeStalled (s : State) : Does trackerParts s (judgeStalled s) := by
  unfold judgeStalled
  split
  · split
    · exact Does.refl _ s
    · exact does_handover _ s
  · exact Does.refl _ s

theorem does_trackerTakeClose (i : Slot) (gap changed : Bool) (s : State) :
    Does trackerParts s (trackerTakeClose i gap changed s) := by
  unfold trackerTakeClose
  dsimp only
  have h (b : Bool) : Does trackerParts s (if b = true then handover .weak s else s) := by
    split
    · exact does_handover _ s
    · exact Does.refl _ s
  split
  · exact (h _).andThen (does_acquire _)
  · exact h _

theorem does_crossingClose (n : Nat) (d : Direction) (s : State) : Does boundaryParts s (crossingClose n d s).1 :=
  (does_makeBoundary _ _ _ _ s).andThen (does_setTracker _ _)

theorem makeBoundary_tracker (n : Nat) (d : Direction) (after : TrackerMode) (length : Nat) (s : State) :
    (makeBoundary n d after length s).1.tracker = s.tracker.make (s.tracker.entry n d after) after :=
  (does_harmonicBoundary _ _ _ _).keeps.tracker

theorem does_forcedClose (n : Nat) (s : State) : Does trackerParts s (forcedClose n s).1 := by
  unfold forcedClose
  dsimp only
  have h (a : TrackerMode) : Does trackerParts s
      ((makeBoundary n s.tracker.lastDirection.opposite a (s.tracker.position + 1) s).1.setTracker
        { (makeBoundary n s.tracker.lastDirection.opposite a (s.tracker.position + 1) s).1.tracker with
          forcedCloses := bump s.tracker.forcedCloses, forcedRun := s.tracker.forcedRun + 1 }) := by
    refine (does_makeBoundary _ _ _ _ s).andThen (does_setTracker _ _ (hc := by
      rw [makeBoundary_tracker]
      exact fun k => ⟨k.1, bump_le k.2⟩))
  split
  · split
    · exact ((h _).andThen (rs := trackerParts) (does_enterFree _)).andThen (does_recordChange _ _ _ _)
    · exact (h _).andThen (does_enterFree _)
  · exact h _

theorem does_decideByCrossing (n : Nat) (crossing : Option Direction) (s : State) :
    Does trackerParts s (decideByCrossing n crossing s).1 := by
  unfold decideByCrossing
  dsimp only
  split
  · split
    · exact (does_crossingClose _ _ s).on
    · exact (does_setTracker s _ (hc := by exact fun k => ⟨bump_le k.1, k.2⟩)).on
  · split
    · exact does_forcedClose _ s
    · exact (does_setTracker s _).on

theorem does_acceptCrossing (p : Nat) (crossing : Option Direction) (s : State) :
    Does [.tracker] s (acceptCrossing p crossing s) := by
  unfold acceptCrossing
  split
  · exact does_setTracker s _
  · exact Does.refl _ s

theorem does_trackerTakeInstant (i : Slot) (n : Nat) (x : Option SampleSet) (p : Nat) (s : State) :
    Does trackerParts s (trackerTakeInstant i n x p s).1 := by
  unfold trackerTakeInstant
  dsimp only
  split
  · exact Does.refl _ s
  · split
    · split
      · exact (does_setTracker s _).andThen (does_acceptCrossing _ _ _)
      · split
        · exact (does_setTracker s _).andThen (does_decideByCrossing _ _ _)
        · exact (does_setTracker s _).on
    · exact Does.refl _ s

theorem does_trackerSoftReset (s : State) : Does [.tracker] s (trackerSoftReset s) := by
  unfold trackerSoftReset
  dsimp only
  refine does_setTracker s _ ?_ (fun _ => Nat.zero_le _) (fun _ => ⟨Nat.zero_le _, Nat.zero_le _⟩)
  split
  · rfl
  · exact (does_enterFree s).keeps .reference (by decide)

end Sys2Proof.Machine
end

