-- ==== Sys2Proof/Laws/Printing.lean ====
section
/-! SUPPORT. What the operations of the print engine can do (08). -/

namespace Sys2Proof.Machine

set_option Elab.async false

open Sys2Proof

/-- The print engine changed with its tables kept, its queues within their places and its counter within its width. -/
structure PrintEngine.Kept (p q : PrintEngine) : Prop where
  templates : q.templates = p.templates := by rfl
  timing : q.timing = p.timing := by rfl
  queues : p.queuesOk → q.queuesOk := by exact fun h => h
  count : p.underruns ≤ 65535 → q.underruns ≤ 65535 := by exact fun h => h

theorem PrintEngine.Kept.trans {p q r : PrintEngine} (h : p.Kept q) (k : q.Kept r) : p.Kept r :=
  ⟨k.templates.trans h.templates, k.timing.trans h.timing, fun x => k.queues (h.queues x), fun x => k.count (h.count x)⟩

theorem does_print (s : State) (x : PrintEngine) (h : s.print.Kept x := by exact {}) : Does [.print] s (s.setPrint x) :=
  does_setPrint s x h.templates h.timing h.queues h.count

theorem setHalf_kept (h : HalfName) (x : BandHalf) (p : PrintEngine) : p.Kept (p.setHalf h x) := by
  cases h <;> exact {}

theorem mapHead_kept (f : Job → Job) (p : PrintEngine) : p.Kept (p.mapHead f) := by
  unfold PrintEngine.mapHead
  split
  · next j rest hj =>
    refine { queues := fun h => ?_ }
    have := h.1
    rw [hj] at this
    exact ⟨this, h.2⟩
  · exact {}

theorem finish_kept (j : Job) (final : FinalState) (cause : EndCause) (p : PrintEngine) :
    p.Kept (p.finish j final cause) where
  queues h := ⟨h.1, by
    show ((p.finished ++ [_]).drop ((p.finished ++ [_]).length - 8)).length ≤ 8
    rw [List.length_drop]; omega⟩

theorem clear_kept (p : PrintEngine) : p.Kept p.clear := {}

theorem startPeriod_kept (p : PrintEngine) : p.Kept p.startPeriod := {}

/-- What the print engine may change. -/
abbrev printParts : List Part := [.print, .directory, .port, .notices, .dport]

theorem does_mapComposer (f : Composer → Composer) (s : State) : Does [.print] s (mapComposer f s) := does_print s _

theorem does_releaseHolds (s : State) : Does [.directory] s (releaseHolds s) :=
  Does.foldl (fun s id => does_removeHold id s) _ s

theorem does_stopBurst (s : State) : Does [.port] s (stopBurst s) := by
  unfold stopBurst
  split
  · exact does_setStore _ s _
  · exact Does.refl _ s

theorem does_activateHead (s : State) : Does [.print] s (activateHead s) := by
  unfold activateHead
  dsimp only
  split
  · split
    · exact does_print s _ ((mapHead_kept _ _).trans {})
    · exact Does.refl _ s
  · exact Does.refl _ s

theorem does_endJob (final : FinalState) (cause : EndCause) (s : State) : Does printParts s (endJob final cause s) := by
  unfold endJob
  dsimp only
  split
  · exact Does.refl _ s
  · next j rest hj =>
    have h : Does [.directory, .port] s (stopBurst (releaseHolds s)) :=
      (does_releaseHolds s).andThen (does_stopBurst _)
    have hp : (stopBurst (releaseHolds s)).print = s.print := h.keeps.print
    have hq : (stopBurst (releaseHolds s)).print.Kept { (stopBurst (releaseHolds s)).print.clear with jobs := rest } :=
      { queues := fun k => ⟨by
          have hk : (stopBurst (releaseHolds s)).print.jobs.length ≤ 8 := k.1
          rw [hp, hj, List.length_cons] at hk
          show rest.length ≤ 8
          omega, k.2⟩ }
    exact (h.andThen (rs := printParts) (does_print _ _ (hq.trans (finish_kept _ _ _ _)))).trans
      (((does_followStall _).andThen (rs := printParts) (does_raise 9 _)).andThen (does_activateHead _))

theorem does_placeDeferred (r : Reply) (s : State) : Does [.print, .dport] s (placeDeferred r s) := by
  unfold placeDeferred
  split
  · next h => exact (does_placeReplyFrame _ s h).on
  · exact (does_print s _).andThen (does_setDport _ _)

theorem does_answerCancel (s : State) : Does [.print, .dport] s (answerCancel s) := by
  unfold answerCancel
  split
  · split
    · exact does_placeDeferred _ s
    · exact Does.refl _ s
    · exact Does.refl _ s
  · exact Does.refl _ s

theorem does_stall (s : State) : Does printParts s (stall s) := by
  unfold stall
  dsimp only
  have h (q : PrintEngine) (f : Job → Job) (hq : s.print.Kept q) : Does printParts s (s.setPrint (q.mapHead f)) :=
    (does_print s _ (hq.trans (mapHead_kept _ _))).on
  split
  · split
    · exact (h _ _ {}).trans ((does_answerCancel _).andThen (does_endJob _ _ _))
    · exact (h _ _ {}).andThen (does_followStall _)
    · exact (h _ _ {}).andThen (does_followStall _)
  · exact h _ _ {}

theorem does_startBandPeriod (paper : Paper) (s : State) : Does printParts s (startBandPeriod paper s) := by
  unfold startBandPeriod
  split
  · exact does_stall s
  · exact (does_print s _ ((setHalf_kept _ _ _).trans (startPeriod_kept _))).on

theorem does_startBand (h : HalfName) (paper : Paper) (s : State) : Does printParts s (startBand h paper s) :=
  (does_print s _).andThen (does_startBandPeriod _ _)

theorem does_endFeed (s : State) : Does printParts s (endFeed s) := by
  unfold endFeed
  split
  · exact does_endJob _ _ s
  · exact (does_print s _).andThen (does_activateHead _)

theorem does_startFeedPeriod (paper : Paper) (s : State) : Does printParts s (startFeedPeriod paper s) := by
  unfold startFeedPeriod
  split
  · exact (does_print s _).andThen (does_endFeed _)
  · exact (does_print s _ (startPeriod_kept _)).on

theorem does_startFeed (lines : Nat) (why : FeedFor) (paper : Paper) (s : State) :
    Does printParts s (startFeed lines why paper s) := (does_print s _).andThen (does_startFeedPeriod _ _)

theorem does_cancelEffect (paper : Paper) (s : State) : Does printParts s (cancelEffect paper s) :=
  ((((does_stopBurst s).andThen (rs := printParts) (does_print _ _)).andThen (rs := printParts)
    (does_answerCancel _)).andThen (rs := printParts) (does_print _ _ (mapHead_kept _ _))).trans (does_startFeed _ _ _ _)

theorem does_rowBoundary (paper : Paper) (s : State) : Does printParts s (rowBoundary paper s) := by
  unfold rowBoundary
  dsimp only
  split
  · exact does_startBand _ _ s
  · split
    · exact does_endJob _ _ s
    · exact (does_print s _ { count := bump_le }).on

theorem does_completeRow (paper : Paper) (s : State) : Does printParts s (completeRow paper s) := by
  unfold completeRow
  dsimp only
  have h (f : Job → Job) (n : HalfName) (g : Generator) : Does printParts s
      (s.setPrint { (s.print.mapHead f).setHalf n .free with gen := g }) :=
    (does_print s _ (((mapHead_kept _ _).trans (setHalf_kept _ _ _)).trans {})).on
  split
  · exact (h _ _ _).trans (does_cancelEffect _ _)
  · exact (h _ _ _).trans (does_rowBoundary _ _)

theorem does_endPeriod (paper : Paper) (s : State) : Does printParts s (endPeriod paper s) := by
  unfold endPeriod
  dsimp only
  split
  · split
    · exact (does_print s _).andThen (does_startBandPeriod _ _)
    · exact does_completeRow _ s
  · split
    · exact (does_print s _).andThen (does_endFeed _)
    · exact (does_print s _).andThen (does_startFeedPeriod _ _)
  · exact Does.refl _ s
  · exact Does.refl _ s

/-! ### The composer -/

theorem does_beginLine (j : Job) (line : TemplateLine) (s : State) : Does printParts s (beginLine j line s) := by
  unfold beginLine
  dsimp only
  have h : Does printParts s (mapComposer (fun c => { c with begun := true, rows := 0 }) s) := (does_mapComposer _ s).on
  split
  · split
    · exact h
    · exact h.trans ((does_placeHold _ _).andThen (does_mapComposer _ _))
  · exact h.andThen (does_mapComposer _ _)
  · exact h

theorem does_finishLine (s : State) : Does printParts s (finishLine s) := by
  unfold finishLine
  exact (does_releaseHolds s).andThen (does_mapComposer _ _)

theorem does_stepNote (line : TemplateLine) (s : State) : Does [.print] s (stepNote line s) := by
  unfold stepNote
  split
  · split
    · exact does_mapComposer _ s
    · exact Does.refl _ s
  · exact Does.refl _ s

theorem does_feedGenerator (h : HalfName) (paper : Paper) (s : State) : Does printParts s (feedGenerator h paper s) := by
  unfold feedGenerator
  split
  · exact does_startBand _ _ s
  · exact Does.refl _ s

theorem does_rowFull (line : TemplateLine) (t : Text) (paper : Paper) (s : State) :
    Does printParts s (rowFull line t paper s) := by
  unfold rowFull
  dsimp only
  refine Does.trans ?_ (does_feedGenerator _ _ _)
  have h (n : HalfName) (x : BandHalf) (f : Composer → Composer) : Does printParts s
      (mapComposer f (stepNote line (s.setPrint (s.print.setHalf n x)))) :=
    ((does_print s _ (setHalf_kept _ _ _)).andThen (rs := printParts) (does_stepNote line _)).andThen
      (does_mapComposer _ _)
  split
  · exact (h _ _ _).trans (does_finishLine _)
  · exact h _ _ _

theorem does_finishedEarly (s : State) : Does printParts s (finishedEarly s) := by
  unfold finishedEarly
  dsimp only
  have h (n : HalfName) (x : BandHalf) : Does printParts s (s.setPrint (s.print.setHalf n x)) :=
    (does_print s _ (setHalf_kept _ _ _)).on
  split
  · exact (h _ _).trans (does_endJob _ _ _)
  · exact h _ _

theorem does_composerGo (paper : Paper) (fuel : Nat) (s : State) : Does printParts s (composerGo paper fuel s) := by
  induction fuel generalizing s with
  | zero => exact Does.refl _ s
  | succ k ih =>
    unfold composerGo
    split
    · exact Does.refl _ s
    · next j line _ =>
      dsimp only
      have h : Does printParts s (if s.print.composer.begun = true then s else beginLine j line s) := by
        split
        · exact Does.refl _ s
        · exact does_beginLine j line s
      generalize (if s.print.composer.begun = true then s else beginLine j line s) = s1 at h ⊢
      refine h.trans ?_
      split
      · split
        · exact does_rowFull _ _ _ _
        · exact (does_placeHold _ _).andThen (does_mapComposer _ _)
        · exact (does_mapComposer _ _).on
        · split
          · exact (does_finishLine _).trans (does_finishedEarly _)
          · exact (does_finishLine _).trans (ih _)
      · exact Does.refl _ _

theorem does_composerTake (paper : Paper) (s : State) : Does printParts s (composerTake paper s) := by
  unfold composerTake
  split
  · split
    · exact Does.refl _ s
    · exact ((does_print s _ (setHalf_kept _ _ _)).andThen (rs := printParts) (does_mapComposer _ _)).trans
        (does_composerGo _ _ _)
  · exact Does.refl _ s

theorem does_judgeCandidate (id minDepth : Nat) (block : List Byte) (s : State) :
    Does printParts s (judgeCandidate id minDepth block s) := by
  unfold judgeCandidate
  split
  · exact (does_mapComposer _ s).on
  · exact (does_removeHold id s).andThen (does_mapComposer _ _)

theorem does_composerTakeBlock (paper : Paper) (block : List Byte) (s : State) :
    Does printParts s (composerTakeBlock paper block s) := by
  unfold composerTakeBlock
  split
  · exact Does.refl _ s
  · split
    · exact Does.refl _ s
    · exact (does_judgeCandidate _ _ _ s).trans (does_composerGo _ _ _)
    · exact (does_mapComposer _ s).andThen (does_rowFull _ _ _ _)
    · exact (does_mapComposer _ s).on
    · exact (does_mapComposer _ s).andThen (does_composerGo _ _ _)

end Sys2Proof.Machine
end

