-- ==== Sys2Proof/Laws/Arbiter.lean ====
section
/-! SUPPORT. What the operations of the store arbiter, of its bursts and of the command unit can do (06, R195 to R197). -/

namespace Sys2Proof.Machine

set_option Elab.async false

open Sys2Proof

/-! ### Starting a burst -/

theorem does_port (s : State) (f : Store → Store)
    (hk : ∀ p, p ∉ [Part.port] → p.Same s (s.setStore (f s.store)) := by
      intro p hp
      cases p <;> first | exact absurd (by decide) hp | exact rfl)
    (hm : memWf s.store.mem = true → memWf (f s.store).mem = true := by exact fun h => h)
    (hc : s.store.reclaimed ≤ 65535 → (f s.store).reclaimed ≤ 65535 := by exact fun h => h) :
    Does [.port] s (mapStore f s) := does_setStore [.port] s _ hk hm hc

/-- What the arbiter may change as it grants the port. -/
abbrev grantParts : List Part :=
  [.port, .directory, .registry, .capture, .episodes, .harmonic, .notices, .dport]

theorem does_beginItems (i : Slot) (taken rest : List StagedItem) (s : State) :
    Does [.capture, .port] s (beginItems i taken rest s) := (does_setCap s i _).andThen (does_port _ _)

theorem grown {id : Nat} {s t : State} {b : Bool} (h : growCapture id s = (t, b)) : Does recordParts s t := by
  have k := does_growCapture id s
  rw [h] at k
  exact k

theorem does_startCaptureBurst (fuel : Nat) (s : State) : Does grantParts s (startCaptureBurst fuel s) := by
  induction fuel generalizing s with
  | zero => exact Does.refl _ s
  | succ k ih =>
    unfold startCaptureBurst
    dsimp only
    split
    · exact (does_port s _).on
    · split
      · exact Does.refl _ s
      · split
        · exact Does.refl _ s
        · split
          · exact (does_port s _).on
          · split
            · exact (does_beginItems _ _ _ s).on
            · split
              · next s1 hs => exact (grown hs).andThen (does_beginItems _ _ _ _)
              · next s1 hs => exact ((grown hs).andThen (does_setCap _ _ _)).trans (ih _)

theorem does_takeId (block : Nat) (a : Admitted) (s : State) : Does [.directory] s (takeId block a s).1 := by
  unfold takeId
  split
  · exact does_setStore [.directory] s _
  · exact Does.refl _ s

theorem does_startEpisodeBurst (s : State) : Does grantParts s (startEpisodeBurst s) := by
  unfold startEpisodeBurst
  dsimp only
  split
  · exact ((does_takeId _ _ s).andThen (rs := grantParts) (does_setEpisodes _ _)).andThen (does_port _ _)
  · exact Does.refl _ s

theorem does_startHarmonicBurst (s : State) : Does grantParts s (startHarmonicBurst s) := by
  unfold startHarmonicBurst
  dsimp only
  split
  · exact ((does_takeId _ _ s).andThen (rs := grantParts) (does_setHarmonic _ _)).andThen (does_port _ _)
  · exact Does.refl _ s

theorem does_startSecondaryBurst (x : Secondary) (s : State) : Does grantParts s (startSecondaryBurst x s) := by
  unfold startSecondaryBurst
  split
  · exact does_startEpisodeBurst s
  · exact does_startHarmonicBurst s
  · split
    · exact (does_port s _).on
    · exact Does.refl _ s
  · exact (does_port s _).on

/-! ### Grants -/

theorem does_grantPrimary (s : State) : Does grantParts s (grantPrimary s) :=
  (does_port s _).andThen (does_startCaptureBurst _ _)

theorem does_grantSecondary (x : Secondary) (s : State) : Does grantParts s (grantSecondary x s) :=
  (does_port s _).andThen (does_startSecondaryBurst _ _)

theorem does_release (s : State) : Does [.port] s (release s) := does_port s _

theorem does_arbitrate (s : State) : Does grantParts s (arbitrate s) := by
  unfold arbitrate
  split
  · split
    · exact does_grantPrimary s
    · split
      · exact does_grantSecondary _ s
      · exact Does.refl _ s
  · exact Does.refl _ s

theorem does_afterPrimary (s : State) : Does grantParts s (afterPrimary s) := by
  unfold afterPrimary
  dsimp only
  split
  · exact does_startCaptureBurst _ s
  · split
    · exact does_grantSecondary _ s
    · split
      · exact does_grantPrimary s
      · exact (does_release s).on

theorem does_afterSecondary (x : Secondary) (b : Bool) (s : State) : Does grantParts s (afterSecondary x b s) := by
  unfold afterSecondary
  split
  · exact does_startSecondaryBurst _ s
  · split
    · exact does_grantPrimary s
    · split
      · exact does_grantSecondary _ s
      · exact (does_release s).on

/-! ### Ends of bursts -/

theorem does_endItems (i : Slot) (taken : List StagedItem) (s : State) :
    Does [.memory, .directory] s (endItems i taken s) := by
  unfold endItems
  dsimp only
  split
  · exact Does.refl _ s
  · split
    · exact Does.refl _ s
    · exact (does_setMem s _ (writeRecord_wf _ _ _)).andThen (does_updateEntry _ _ _)

theorem does_writeBlock (a : Admitted) (b : Nat) (bytes : List Byte) (s : State) :
    Does [.memory] s (writeBlock a b bytes s) := does_setMem s _ (writeRecord_wf _ _ _)

theorem does_autoSend (id : Nat) (bytes : List Byte) (s : State) : Does [.dport, .episodes] s (autoSend id bytes s) := by
  unfold autoSend
  dsimp only
  split
  · split
    · next h => exact (does_placeRecords _ s h).on
    · exact (does_setEpisodes s _ (hc := by exact fun k => ⟨k.1, bump_le k.2⟩)).on
  · exact Does.refl _ s

/-- A frame joins a periodic queue that has room for it. -/
theorem does_putPeriodic (r : RecordCopy) (s : State) (h : s.dport.periodic.length ≤ 1) :
    Does [.dport] s (s.setDport ({ s.dport with periodic := s.dport.periodic ++ [r] } : DPort).kick) := by
  refine does_setDport s _ (kick_hold _) (fun k => kick_queues ?_) (fun k => kick_counts k)
  obtain ⟨h1, h2, h3, h4⟩ := k
  exact ⟨h1, h2, by simp only [List.length_append, List.length_singleton]; omega, h4⟩

theorem choose_periodic (d : DPort) : d.choose.periodic.length ≤ d.periodic.length := by
  unfold DPort.choose
  split
  · exact Nat.le_refl _
  · exact Nat.le_refl _
  · exact Nat.le_refl _
  · next hp => show _ ≤ d.periodic.length; rw [hp]; exact Nat.le_succ _
  · exact Nat.le_refl _
  · exact Nat.le_refl _

theorem kick_periodic (d : DPort) : d.kick.periodic.length ≤ d.periodic.length := by
  unfold DPort.kick
  split
  · exact choose_periodic d
  · exact Nat.le_refl _

theorem judgeOffer_periodic (s : State) : (judgeOffer s).dport.periodic.length ≤ s.dport.periodic.length := by
  unfold judgeOffer
  dsimp only
  repeat' split
  all_goals first | exact Nat.le_refl _ | exact kick_periodic _

theorem does_queuePeriodic (r : RecordCopy) (s : State) :
    Does [.dport, .harmonic, .notices] s (queuePeriodic r s) := by
  unfold queuePeriodic
  dsimp only
  split
  · next a b rest hp =>
    refine Does.trans (((does_setDport s _ (hq := ?_)).andThen (rs := [.dport, .harmonic, .notices])
      (does_setHarmonic _ _ (hc := by exact fun k => ⟨bump_le k.1, k.2⟩))).andThen (does_raise 3 _))
      ((does_putPeriodic r _ (judgeOffer_periodic _)).on)
    exact fun k => ⟨k.1, k.2.1, Nat.le_succ 1, k.2.2.2⟩
  · next hp =>
    refine (does_putPeriodic r s ?_).on
    rcases hq : s.dport.periodic with _ | ⟨a, _ | ⟨b, rest⟩⟩
    · exact Nat.zero_le _
    · exact Nat.le_refl _
    · exact absurd hq (hp a b rest)

/-- What the end of a burst of a record writer may change. -/
abbrev writeParts : List Part := [.memory, .directory, .registry, .episodes, .harmonic, .notices, .dport]

theorem does_endEpisodeBlock (b : Nat) (s : State) : Does writeParts s (endEpisodeBlock b s) := by
  unfold endEpisodeBlock
  dsimp only
  split
  · next a r rest _ ho =>
    have h := does_writeBlock a b (episodeBytes r (a.id.getD 0)) s
    have he : (writeBlock a b (episodeBytes r (a.id.getD 0)) s).episodes = s.episodes := h.keeps .episodes (by decide)
    split
    · refine ((h.andThen (rs := writeParts) (does_setEpisodes _ _ (hq := ?_))).andThen (rs := writeParts)
        (does_fileRecord _ _ _ _ _ _ _ _)).andThen (does_autoSend _ _ _)
      rw [he, ho]
      exact fun k => Nat.le_of_succ_le k
    · exact h.andThen (does_setEpisodes _ _)
  · exact Does.refl _ s

theorem does_endHarmonicBlock (b : Nat) (s : State) : Does writeParts s (endHarmonicBlock b s) := by
  unfold endHarmonicBlock
  dsimp only
  split
  · next a r rest _ ho =>
    have h := does_writeBlock a b (harmonicBytes r (a.id.getD 0)) s
    have he : (writeBlock a b (harmonicBytes r (a.id.getD 0)) s).harmonic = s.harmonic := h.keeps .harmonic (by decide)
    split
    · refine ((h.andThen (rs := writeParts) (does_setHarmonic _ _ (hq := ?_))).andThen (rs := writeParts)
        (does_fileRecord _ _ _ _ _ _ _ _)).andThen (does_queuePeriodic _ _)
      rw [he, ho]
      exact fun k => Nat.le_of_succ_le k
    · exact h.andThen (does_setHarmonic _ _)
  · exact Does.refl _ s

/-! ### The readout -/

theorem does_readout (s : State) (f : Store → Store)
    (hk : ∀ p, p ∉ [Part.readout] → p.Same s (s.setStore (f s.store)) := by
      intro p hp
      cases p <;> first | exact absurd (by decide) hp | exact rfl)
    (hm : memWf s.store.mem = true → memWf (f s.store).mem = true := by exact fun h => h)
    (hc : s.store.reclaimed ≤ 65535 → (f s.store).reclaimed ≤ 65535 := by exact fun h => h) :
    Does [.readout] s (mapStore f s) := does_setStore [.readout] s _ hk hm hc

theorem does_endReadoutRead (s : State) : Does [.readout] s (endReadoutRead s) := by
  unfold endReadoutRead
  dsimp only
  split
  · exact Does.refl _ s
  · exact does_readout s _

theorem does_placeReadoutFrame (s : State) (h : s.dport.record.length + 1 ≤ 32) :
    Does [.readout, .dport, .directory] s (placeReadoutFrame s) := by
  unfold placeReadoutFrame
  dsimp only
  have h1 (f : RecordFrame) : Does [.dport] s (s.setDport (s.dport.placeRecords [f])) := does_placeRecords _ s h
  split
  · exact ((h1 _).andThen (rs := [.readout, .dport, .directory]) (does_readout _ _)).andThen (does_removeHold _ _)
  · exact (h1 _).andThen (does_readout _ _)

/-! ### The end of a burst -/

/-- What the end of a burst may change. -/
abbrev burstParts : List Part :=
  [.memory, .directory, .registry, .episodes, .harmonic, .notices, .dport, .capture, .slots, .event, .print, .port,
    .readout]

theorem does_finishBurst (b : Burst) (paper : Paper) (s : State) : Does burstParts s (finishBurst b paper s) := by
  unfold finishBurst
  split
  · exact (does_endItems _ _ s).on
  · exact (does_completeCapture _ s).on
  · exact (does_endEpisodeBlock _ s).on
  · exact (does_endHarmonicBlock _ s).on
  · split
    · exact (does_composerTakeBlock _ _ s).on
    · exact Does.refl _ s
  · exact (does_endReadoutRead s).on
  · exact Does.refl _ s

theorem does_endBurst (b : Burst) (paper : Paper) (s : State) : Does burstParts s (endBurst b paper s) := by
  unfold endBurst
  dsimp only
  have h : Does burstParts s (mapStore (fun st => { st with used := st.used + 1 })
      (finishBurst b paper (mapStore (fun st => { st with burst := none }) s))) :=
    ((does_port s _).andThen (rs := burstParts) (does_finishBurst b paper _)).andThen (does_port _ _)
  refine h.trans ?_
  split
  · exact (does_arbitrate _).on
  · exact (does_afterPrimary _).on
  · exact (does_afterSecondary _ _ _).on

/-! ### The command unit -/

theorem does_finish (s : State) : Does [.cmd] s (s.setCmd s.cmd.finish) := by
  unfold CommandUnit.finish
  split
  · next d rest _ hq =>
    refine does_setCmd s _ (hq := ?_)
    rw [hq]
    exact fun k => Nat.le_of_succ_le k
  · exact does_setCmd s _

theorem does_answer (r : Reply) (s : State) : Does [.cmd, .dport] s (answer r s) := by
  unfold answer
  split
  · next h => exact (does_finish s).andThen (does_placeReplyFrame _ _ h)
  · exact (does_setCmd s _).andThen (does_setDport _ _)

theorem does_takeCommand (c : Instr) (s t : State) (h : takeCommand c s = some t) : Does [.cmd] s t := by
  unfold takeCommand at h
  split at h
  · split at h
    · cases h; exact Does.refl _ s
    · cases h
    · split at h
      · cases h; exact does_setCmd s _
      · cases h
  · cases h

/-- A command run changes what its own judgement may change, and the reply's way out. -/
theorem does_runCommand {ps : List Part} (c : Instr) (e : Envelope) (code : Byte) (judge : State → Verdict) (s : State)
    (h : ∀ t, Does ps t (judge t).state) : Does (.cmd :: .dport :: ps) s (runCommand c e code judge s) := by
  unfold runCommand
  dsimp only
  split
  · exact Does.refl _ s
  · next t ht =>
    have h1 : Does (.cmd :: .dport :: ps) s t :=
      (does_takeCommand c s t ht).on (by intro p hp; rw [List.mem_singleton] at hp; subst hp; exact List.mem_cons_self)
    refine h1.trans (Does.trans ?_ ((does_answer _ _).on (by
      intro p hp
      simp only [List.mem_cons, List.not_mem_nil, or_false] at hp ⊢
      rcases hp with h | h
      · exact .inl h
      · exact .inr (.inl h))))
    split
    · exact (h t).on (fun p hp => List.mem_cons_of_mem _ (List.mem_cons_of_mem _ hp))
    · exact Does.refl _ t

theorem does_arrive (c : Instr) (s : State) : Does [.cmd, .notices, .dport] s (arrive c s) := by
  unfold arrive
  split
  · exact (does_setCmd s _).on
  · split
    · refine (does_setCmd s _ (hq := ?_)).on
      intro _
      simp only [List.length_append, List.length_singleton]
      omega
    · exact (does_setCmd s _ (hc := by exact bump_le)).andThen (does_raise 11 _)

theorem does_placeWaiting (r : Reply) (s : State) (h : s.dport.replyRoom = true) :
    Does [.cmd, .dport] s (placeWaiting r s) :=
  ((does_finish s).andThen (rs := [.cmd, .dport]) (does_setDport _ _)).andThen (does_placeReplyFrame _ _ h)

theorem does_startAsking (r : Reply) (s : State) : Does (.readout :: grantParts) s (startAsking r s) := by
  unfold startAsking
  split
  · exact (does_readout s _).andThen (does_arbitrate _)
  · exact Does.refl _ s

end Sys2Proof.Machine
end

