-- ==== Sys2Proof/Laws/PerInstr.lean ====
section
/-! SUPPORT. The family of statements made of each row of the table as syntax. -/

namespace Sys2Proof.Laws

set_option Elab.async false

open Sys2Proof Sys2Proof.Machine

namespace RowCode

/-- A row has a command code exactly when it is a command of the crew computer, and a command with parameters of its own has
one of the part's codes 1..37 (R204). -/
def Statement (c : Instr) : Prop :=
  (commandCode c).isSome = isCommand c ∧
    ((envelope c).isSome = true → ∃ code, commandCode c = some code ∧ knownCode code = true)

theorem powerOn : Statement .powerOn := ⟨rfl, nofun⟩

theorem instantAdvance : Statement .instantAdvance := ⟨rfl, nofun⟩

theorem surveyClockTick : Statement .surveyClockTick := ⟨rfl, nofun⟩

theorem debounceTimerExpiry (slot : Slot) : Statement (.debounceTimerExpiry slot) := ⟨rfl, nofun⟩

theorem quietTimerExpiry (slot : Slot) : Statement (.quietTimerExpiry slot) := ⟨rfl, nofun⟩

theorem sample (f : SampleFrame) : Statement (.sample f) := ⟨rfl, nofun⟩

theorem controlFrameReceive (f : ControlFrame) : Statement (.controlFrameReceive f) := ⟨rfl, nofun⟩

theorem uFrameReject (f : LineFrame) : Statement (.uFrameReject f) := ⟨rfl, nofun⟩

theorem attach : Statement .attach := ⟨rfl, nofun⟩

theorem statusFrame : Statement .statusFrame := ⟨rfl, nofun⟩

theorem podNotice : Statement .podNotice := ⟨rfl, nofun⟩

theorem podReply : Statement .podReply := ⟨rfl, nofun⟩

theorem laneInstant (slot : Slot) : Statement (.laneInstant slot) := ⟨rfl, nofun⟩

theorem capturePreRead (slot : Slot) : Statement (.capturePreRead slot) := ⟨rfl, nofun⟩

theorem heldGapRunPlace (slot : Slot) : Statement (.heldGapRunPlace slot) := ⟨rfl, nofun⟩

theorem episodeWriteStart : Statement .episodeWriteStart := ⟨rfl, nofun⟩

theorem harmonicWriteStart : Statement .harmonicWriteStart := ⟨rfl, nofun⟩

theorem storeBurstEnd (paper : Paper) : Statement (.storeBurstEnd paper) := ⟨rfl, nofun⟩

theorem readoutFramePlace : Statement .readoutFramePlace := ⟨rfl, nofun⟩

theorem composerRow (paper : Paper) : Statement (.composerRow paper) := ⟨rfl, nofun⟩

theorem printPeriodEnd (paper : Paper) : Statement (.printPeriodEnd paper) := ⟨rfl, nofun⟩

theorem strobeStart (head : Head) : Statement (.strobeStart head) := ⟨rfl, nofun⟩

theorem strobeEnd : Statement .strobeEnd := ⟨rfl, nofun⟩

theorem motorStep : Statement .motorStep := ⟨rfl, nofun⟩

theorem headOk : Statement .headOk := ⟨rfl, nofun⟩

theorem paperPresent : Statement .paperPresent := ⟨rfl, nofun⟩

theorem offerRetry : Statement .offerRetry := ⟨rfl, nofun⟩

theorem replyPlace : Statement .replyPlace := ⟨rfl, nofun⟩

theorem deferredReplyPlace : Statement .deferredReplyPlace := ⟨rfl, nofun⟩

theorem dFrameEnd : Statement .dFrameEnd := ⟨rfl, nofun⟩

theorem uFrameEnd : Statement .uFrameEnd := ⟨rfl, nofun⟩

theorem command (c : Instr) : Statement (.command c) := ⟨rfl, nofun⟩

theorem dFrameReject (f : LineFrame) : Statement (.dFrameReject f) := ⟨rfl, nofun⟩

theorem unknownCommand (tag : BitVec 16) (code : Byte) : Statement (.unknownCommand tag code) := ⟨rfl, nofun⟩

theorem forwardedCommand (tag : BitVec 16) (target : Byte) (code : Byte) (body : List Byte) :
    Statement (.forwardedCommand tag target code body) :=
  ⟨rfl, nofun⟩

theorem tableLoadSurvey (h : LoadHead) (entries : List SurveyEntry) :
    Statement (.tableLoadSurvey h entries) :=
  ⟨rfl, fun _ => ⟨_, rfl, rfl⟩⟩

theorem tableLoadReference (h : LoadHead) (entries : List (Option Nat)) :
    Statement (.tableLoadReference h entries) :=
  ⟨rfl, fun _ => ⟨_, rfl, rfl⟩⟩

theorem tableLoadThreshold (h : LoadHead) (entries : List ThresholdEntry) :
    Statement (.tableLoadThreshold h entries) :=
  ⟨rfl, fun _ => ⟨_, rfl, rfl⟩⟩

theorem tableLoadCapture (h : LoadHead) (entries : List CaptureEntry) :
    Statement (.tableLoadCapture h entries) :=
  ⟨rfl, fun _ => ⟨_, rfl, rfl⟩⟩

theorem tableLoadBin (h : LoadHead) (entries : List (Option Nat)) :
    Statement (.tableLoadBin h entries) :=
  ⟨rfl, fun _ => ⟨_, rfl, rfl⟩⟩

theorem tableLoadHarmonic (h : LoadHead) (entries : List HarmonicEntry) :
    Statement (.tableLoadHarmonic h entries) :=
  ⟨rfl, fun _ => ⟨_, rfl, rfl⟩⟩

theorem tableLoadTemplate (h : LoadHead) (entries : List (List TemplateLine)) :
    Statement (.tableLoadTemplate h entries) :=
  ⟨rfl, fun _ => ⟨_, rfl, rfl⟩⟩

theorem tableLoadPrintTiming (h : LoadHead) (entries : List TimingEntry) :
    Statement (.tableLoadPrintTiming h entries) :=
  ⟨rfl, fun _ => ⟨_, rfl, rfl⟩⟩

theorem tableRead (e : Envelope) (table : Option TableId) (first count : Nat) :
    Statement (.tableRead e table first count) :=
  ⟨rfl, fun _ => ⟨_, rfl, rfl⟩⟩

theorem status (e : PrinterEnvelope) (sel : Option StatusSection) : Statement (.status e sel) := ⟨rfl, fun _ => ⟨_, rfl, rfl⟩⟩

theorem clockSet (e : Envelope) (seconds : BitVec 32) : Statement (.clockSet e seconds) := ⟨rfl, fun _ => ⟨_, rfl, rfl⟩⟩

theorem softReset (e : Envelope) : Statement (.softReset e) := ⟨rfl, fun _ => ⟨_, rfl, rfl⟩⟩

theorem hold (e : Envelope) : Statement (.hold e) := ⟨rfl, fun _ => ⟨_, rfl, rfl⟩⟩

theorem release (e : Envelope) : Statement (.release e) := ⟨rfl, fun _ => ⟨_, rfl, rfl⟩⟩

theorem podDetach (e : Envelope) (slot : Nat) : Statement (.podDetach e slot) := ⟨rfl, fun _ => ⟨_, rfl, rfl⟩⟩

theorem slotPassthrough (e : Envelope) (slot : Nat) (on : Bool) :
    Statement (.slotPassthrough e slot on) :=
  ⟨rfl, fun _ => ⟨_, rfl, rfl⟩⟩

theorem captureForce (e : Envelope) (slot n : Nat) : Statement (.captureForce e slot n) := ⟨rfl, fun _ => ⟨_, rfl, rfl⟩⟩

theorem siteOpen (e : Envelope) (site : Nat) (name : Text) :
    Statement (.siteOpen e site name) :=
  ⟨rfl, fun _ => ⟨_, rfl, rfl⟩⟩

theorem siteClose (e : Envelope) : Statement (.siteClose e) := ⟨rfl, fun _ => ⟨_, rfl, rfl⟩⟩

theorem siteForget (e : Envelope) (site : Nat) : Statement (.siteForget e site) := ⟨rfl, fun _ => ⟨_, rfl, rfl⟩⟩

theorem siteList (e : Envelope) : Statement (.siteList e) := ⟨rfl, fun _ => ⟨_, rfl, rfl⟩⟩

theorem noteAdd (e : Envelope) (site : Nat) (tags : BitVec 32) (text : Text) (links : List Nat) :
    Statement (.noteAdd e site tags text links) :=
  ⟨rfl, fun _ => ⟨_, rfl, rfl⟩⟩

theorem noteLink (e : Envelope) (note record : Nat) :
    Statement (.noteLink e note record) :=
  ⟨rfl, fun _ => ⟨_, rfl, rfl⟩⟩

theorem noteUnlink (e : Envelope) (note record : Nat) :
    Statement (.noteUnlink e note record) :=
  ⟨rfl, fun _ => ⟨_, rfl, rfl⟩⟩

theorem noteDelete (e : Envelope) (note : Nat) : Statement (.noteDelete e note) := ⟨rfl, fun _ => ⟨_, rfl, rfl⟩⟩

theorem noteRead (e : Envelope) (note : Nat) : Statement (.noteRead e note) := ⟨rfl, fun _ => ⟨_, rfl, rfl⟩⟩

theorem noteList (e : Envelope) (site : Option Nat) (filter : BitVec 32) (start : Nat) :
    Statement (.noteList e site filter start) :=
  ⟨rfl, fun _ => ⟨_, rfl, rfl⟩⟩

theorem recordList (e : Envelope) (site : Option Nat) (kind : Option RecordKind) (start : Nat) :
    Statement (.recordList e site kind start) :=
  ⟨rfl, fun _ => ⟨_, rfl, rfl⟩⟩

theorem recordRead (e : Envelope) (record offset : Nat) :
    Statement (.recordRead e record offset) :=
  ⟨rfl, fun _ => ⟨_, rfl, rfl⟩⟩

theorem recordErase (e : Envelope) (record : Nat) : Statement (.recordErase e record) := ⟨rfl, fun _ => ⟨_, rfl, rfl⟩⟩

theorem storeWipe (e : Envelope) : Statement (.storeWipe e) := ⟨rfl, fun _ => ⟨_, rfl, rfl⟩⟩

theorem storeConfig (e : Envelope) (low : Nat) (qp qs : BitVec 4) :
    Statement (.storeConfig e low qp qs) :=
  ⟨rfl, fun _ => ⟨_, rfl, rfl⟩⟩

theorem park (e : Envelope) (retention : Option Retention) :
    Statement (.park e retention) :=
  ⟨rfl, fun _ => ⟨_, rfl, rfl⟩⟩

theorem resume (e : Envelope) : Statement (.resume e) := ⟨rfl, fun _ => ⟨_, rfl, rfl⟩⟩

theorem printSubmit (e : Envelope) (template site : Nat) :
    Statement (.printSubmit e template site) :=
  ⟨rfl, fun _ => ⟨_, rfl, rfl⟩⟩

theorem printCancel (e : PrinterEnvelope) (job : Nat) : Statement (.printCancel e job) := ⟨rfl, fun _ => ⟨_, rfl, rfl⟩⟩

theorem printList (e : PrinterEnvelope) : Statement (.printList e) := ⟨rfl, fun _ => ⟨_, rfl, rfl⟩⟩

theorem paperFeed (e : PrinterEnvelope) (n : Nat) : Statement (.paperFeed e n) := ⟨rfl, fun _ => ⟨_, rfl, rfl⟩⟩

theorem noticeAck (e : Envelope) : Statement (.noticeAck e) := ⟨rfl, fun _ => ⟨_, rfl, rfl⟩⟩

theorem noticePoll (e : Envelope) : Statement (.noticePoll e) := ⟨rfl, fun _ => ⟨_, rfl, rfl⟩⟩

theorem noticeEnd (e : Envelope) (source : Option Nat) :
    Statement (.noticeEnd e source) :=
  ⟨rfl, fun _ => ⟨_, rfl, rfl⟩⟩

theorem noticeMask (e : Envelope) (mask : BitVec 12) : Statement (.noticeMask e mask) := ⟨rfl, fun _ => ⟨_, rfl, rfl⟩⟩

theorem noticeMode (e : Envelope) (mode : Option NoticeMode) :
    Statement (.noticeMode e mode) :=
  ⟨rfl, fun _ => ⟨_, rfl, rfl⟩⟩

theorem noticePolling (e : Envelope) (on : Bool) : Statement (.noticePolling e on) := ⟨rfl, fun _ => ⟨_, rfl, rfl⟩⟩

end RowCode

end Sys2Proof.Laws
end

