-- ==== Sys2Proof/Laws/Sessions.lean ====
section
/-! SUPPORT. What the operations of the session unit and of the sample lanes can do (01). -/

namespace Sys2Proof.Machine

set_option Elab.async false

open Sys2Proof

/-! ### Session ends -/

theorem does_beginEnding (r : EndReason) (s : State) (i : Slot) : Does [.slots] s (beginEnding r s i) :=
  does_setSlot s i _

/-- What a session end may change outside the session unit. -/
abbrev announceParts : List Part :=
  [.notices, .dport, .capture, .episodes, .detector, .harmonic, .registry]

theorem does_announceEnd (s : State) (i : Slot) : Does announceParts s (announceEnd s i) :=
  ((does_detectorSessionEnd i s).andThen (rs := announceParts) (does_setCap _ i _)).andThen
    (does_harmonicSessionEnd i _)

/-- What the end of sessions may change. -/
abbrev endParts : List Part :=
  [.notices, .dport, .capture, .episodes, .detector, .harmonic, .registry, .tracker, .slots, .event]

theorem does_endSessions (slots : List Slot) (r : EndReason) (s : State) : Does endParts s (endSessions slots r s) := by
  unfold endSessions
  dsimp only
  refine Does.trans ?_ ((Does.foldl (fun s i => does_endingToEmpty i s) slots _).on)
  have h1 : Does endParts s (slots.foldl announceEnd (slots.foldl (beginEnding r) s)) :=
    (Does.foldl (does_beginEnding r) slots s).andThen (Does.foldl does_announceEnd slots _)
  have h2 (b : Bool) : Does endParts s (if b = true then
      handover .lost (slots.foldl announceEnd (slots.foldl (beginEnding r) s))
      else slots.foldl announceEnd (slots.foldl (beginEnding r) s)) := by
    split
    · exact h1.andThen (does_handover _ _)
    · exact h1
  refine Does.trans ?_ ((does_followCascade _).on)
  split
  · exact (h2 _).andThen (does_acquire _)
  · exact h2 _

/-! ### Debounce and the start of a session -/

theorem does_sessionEvent (slot : Option Slot) (serial : BitVec 48) (o : SessionOutcome) (s : State) :
    Does [.event, .notices, .dport] s (sessionEvent slot serial o s) :=
  (does_setEvent s _).andThen (does_raise 6 _)

theorem does_debounceFails (i : Slot) (s : State) : Does [.slots, .event, .notices, .dport] s (debounceFails i s) :=
  (does_setSlot s i _).andThen (does_sessionEvent _ _ _ _)

theorem does_grant (serial : BitVec 48) (result : GrantResult) (slot : Option Slot) (s : State) :
    Does [.uplink] s (grant serial result slot s) := does_sendUp _ s

/-- What an ATTACH may change. -/
abbrev attachParts : List Part :=
  [.slots, .event, .uplink, .notices, .dport, .harmonic, .registry, .tracker]

theorem does_attachNew (serial : BitVec 48) (kinds : Quad Kind) (s : State) :
    Does attachParts s (attachNew serial kinds s) := by
  unfold attachNew
  split
  · exact (does_grant _ _ _ s).on
  · split
    · exact (does_setSlot s _ _).on
    · exact (does_grant _ _ _ s).andThen (does_sessionEvent _ _ _ _)

theorem does_startSession (i : Slot) (s : State) : Does attachParts s (startSession i s) :=
  ((((does_setSlot s i _).andThen (rs := attachParts) (does_grant _ _ _ _)).andThen (rs := attachParts)
    (does_harmonicLaneStart i _ _)).andThen (rs := attachParts) (does_sessionEvent _ _ _ _)).andThen (does_acquire _)

theorem does_attachDebounce (i : Slot) (kinds : Quad Kind) (s : State) :
    Does attachParts s (attachDebounce i kinds s) := by
  unfold attachDebounce
  dsimp only
  split
  · split
    · exact does_startSession i s
    · exact (does_setSlot s i _).on
  · exact (does_setSlot s i _).on

theorem does_takeAttach (serial : BitVec 48) (kinds : Quad Kind) (s : State) :
    Does attachParts s (takeAttach serial kinds s) := by
  unfold takeAttach
  split
  · exact does_attachNew _ _ s
  · split
    · exact does_attachDebounce _ _ s
    · exact (does_setSlot s _ _).andThen (does_grant _ _ _ _)
    · exact (does_grant _ _ _ s).on
    · exact Does.refl _ s

theorem does_restartQuiet (i : Slot) (s : State) : Does [.slots] s (restartQuiet i s) := does_setSlot s i _

theorem does_countStray (s : State) : Does [.uplink] s (countStray s) :=
  does_setUplink s _ (hc := by exact fun ⟨a, b, c, d, e⟩ => ⟨bump_le a, b, c, d, e⟩)

theorem does_dropControl (s : State) : Does [.uplink] s (dropControl s) :=
  does_setUplink s _ (hq := by
    exact fun ⟨a, b⟩ => ⟨by show s.session.control.tail.length ≤ 8; rw [List.length_tail]; omega, b⟩)

theorem takeNotice_drops (code : Fin 8) (setting : Bool) (p : PodSlot) :
    (p.takeNotice code setting).ingressDrops = p.ingressDrops := by
  unfold PodSlot.takeNotice
  dsimp only
  split <;> rfl

/-! ### The lanes -/

theorem does_setLane (i : Slot) (l : Lane) (s : State) : Does [.slots] s (setLane i l s) := does_setSlot s i _

/-- What a lane's close may change. -/
abbrev laneCloseParts : List Part :=
  [.notices, .dport, .directory, .registry, .capture, .episodes, .detector, .harmonic, .tracker]

theorem does_deliverClose (i : Slot) (k : LaneClose) (position : Nat) (s : State) :
    Does laneCloseParts s (deliverClose i k position s) :=
  (((((does_setCap s i _).andThen (rs := laneCloseParts) (does_detectorTakeClose i k _)).andThen
    (rs := laneCloseParts) (does_episodeTakeClose _ _ _)).andThen (rs := laneCloseParts)
    (does_harmonicClose i k _ _)).andThen (does_trackerTakeClose i _ _ _))

/-- What a lane may change. -/
abbrev laneParts : List Part :=
  [.notices, .dport, .directory, .registry, .capture, .episodes, .detector, .harmonic, .tracker, .slots, .uplink]

theorem does_processInstant (i : Slot) (l : Lane) (s : State) : Does laneParts s (processInstant i l s) := by
  unfold processInstant
  dsimp only
  have h (c : CaptureSlot) (x : Option SampleSet) (p : PodSlot) (hp : p.ingressDrops = (s.slot i).ingressDrops)
      (q : Nat) : Does laneParts s (trackerTakeInstant i l.position x q
        (((s.setCap i c).setHarmonic (harmonicInstant i x (s.setCap i c).harmonic)).setSlot i p)).1 :=
    ((((does_setCap s i c).andThen (rs := laneParts) (does_engine _ _ (harmonicInstant_filed _ _ _))).andThen
      (rs := laneParts) (does_setSlot _ i p (fun h => by rw [hp]; exact h)))).andThen (does_trackerTakeInstant _ _ _ _ _)
  have k (t : State × Option Boundary) (m : Lane) (ht : Does laneParts s t.1) : Does laneParts s
      (match boundaryAt t.1 l l.position t.2 with
        | none => t.1
        | some b =>
          deliverClose i (m.close b.number (some b.direction) l.position (b.cycle.map (fun c => c.2))) (l.position + 1)
            (setLane i (m.closed b.number (l.position + 1)) t.1)) := by
    split
    · exact ht
    · exact ht.trans ((does_setLane i _ _).andThen (does_deliverClose i _ _ _))
  exact k _ _ (h _ _ _ (by rfl) _)

theorem does_markGaps (i : Slot) (count n : Nat) (s : State) : Does [.capture] s (markGaps i count n s) := by
  induction count generalizing n s with
  | zero => exact Does.refl _ s
  | succ k ih => exact (does_setCap s i _).trans (ih _ _)

theorem does_resyncCloses (i : Slot) (b : Boundary) (count : Nat) (l : Lane) (s : State) :
    Does laneParts s (resyncCloses i b count l s) := by
  induction count generalizing l s with
  | zero => exact Does.refl _ s
  | succ k ih => exact ((does_setLane i _ s).andThen (does_deliverClose i _ _ _)).trans (ih _ _)

theorem does_resync (i : Slot) (l : Lane) (b : Boundary) (s : State) : Does laneParts s (resync i l b s) :=
  ((((does_markGaps i _ _ s).andThen (rs := laneParts) (does_setSlot _ i _)).trans
    (does_resyncCloses i b _ _ _))).andThen
    (does_setUplink _ _ (hc := by exact fun ⟨a, b, c, d, e⟩ => ⟨a, b, c, d, bump_le e⟩))

theorem does_laneStep (i : Slot) (s : State) : Does laneParts s (laneStep i s) := by
  unfold laneStep
  dsimp only
  split
  · exact Does.refl _ s
  · have h (q : List IngressFrame) (k : Nat) : Does laneParts s
        ((s.setSlot i { s.slot i with ingress := q }).setSession
          { (s.setSlot i { s.slot i with ingress := q }).session with stray := bumpBy s.session.stray k }) :=
      (does_setSlot s i _).andThen (does_setUplink _ _ (hc := by
        exact fun ⟨_, b, c, d, e⟩ => ⟨bumpBy_le _ _, b, c, d, e⟩))
    split
    · exact h _ _
    · split
      · split
        · exact (h _ _).trans (does_resync i _ _ _)
        · exact (h _ _).trans (does_processInstant i _ _)
      · exact h _ _

end Sys2Proof.Machine
end

