-- ==== Sys2Proof/Tests/Slice0.lean ====
section
/-! SUPPORT. Tests of the model: the checks of rows, worked cases of the spec, and for every statement a small part and
operands that meet its hypotheses, clause by clause. -/

namespace Sys2Proof.Tests

set_option Elab.async false

open Sys2Proof Sys2Proof.Machine

/-! ### Helpers -/

/-- The envelope of the tests' commands. -/
def env : Envelope := ⟨7, true⟩

/-- An envelope whose parameter length is wrong. -/
def badEnv : Envelope := ⟨7, false⟩

/-- An envelope with the paper line PRESENT and the head line OK. -/
def penv : PrinterEnvelope := ⟨env, .present, .ok⟩

/-- An envelope with the paper line ABSENT. -/
def penvAbsent : PrinterEnvelope := ⟨env, .absent, .ok⟩

/-- The head of a TABLE_LOAD of a run. -/
def head (first count : Nat) : LoadHead := ⟨7, true, true, first, count⟩

/-- The part after power-on, with a free-page list of 12 pages. -/
def base : State := State.reset.setStore { Store.reset with free := List.range 12 }

/-- A site with an id, OPEN. -/
def siteOf (id : Nat) : SiteEntry := ⟨id, [], .opened, 0, none, 0, 0, 0, 1, 1⟩

/-- Site 5 is OPEN. -/
def surveyed : State := base.setSites ⟨[siteOf 5], [], 1⟩

/-- An ACTIVE slot with a lane at an instant. -/
def podAt (position : Nat) : PodSlot :=
  { PodSlot.reset with
    phase := .active, serial := 9, kinds := Quad.fill .voltage, quietTimer := some 4
    lane := some ⟨position, 0, position, Quad.fill 0, Quad.fill 0, 0, false, false⟩ }

/-- Slot 0 is ACTIVE, site 5 OPEN, and the instant counter at 2000. -/
def pod : State := (surveyed.setSlot 0 (podAt 0)).setInstant 2000

/-- Slot 0 in a phase of its own. -/
def phased (p : SlotPhase) : State := base.setSlot 0 { PodSlot.reset with phase := p, serial := 9 }

/-- A directory entry of site 5 with an id on a page. -/
def entryOf (id page : Nat) (state : EntryState) : DirEntry :=
  ⟨id, .episode, 5, state, [page], 600, 0, 0, 0, 0, 0⟩

/-- A directory. -/
def withDir (dir : List DirEntry) (s : State) : State := s.setStore { s.store with dir := dir, nextId := 100 }

/-- The part parked. -/
def asleep (s : State) : State := s.setStore { s.store with parkState := .parked }

/-- The port taken by the readout. -/
def busyPort (s : State) : State := s.setStore { s.store with holder := .secondary .readout }

/-- A reply. -/
def someReply : Reply := ⟨1, 3, .ok, false, .empty⟩

/-- The reply queue full, and a frame in flight. -/
def fullReply (s : State) : State :=
  s.setDport { s.dport with reply := List.replicate 8 (.reply someReply), inFlight := some (.reply someReply, .reply) }

/-- The part after a row, if it answers one. -/
def after (c : Instr) (s : State) : State :=
  match exec c s with
  | .next t => t
  | _ => s

/-- The replies queued or in flight with their outcomes, oldest first. -/
def outcomes (s : State) : List OutcomeCode :=
  ((s.dport.inFlight.map (fun x => x.1)).toList ++ s.dport.reply).filterMap
    (fun f => match f with | .reply r => some r.outcome | _ => none)

/-! ### The checks of rows -/

theorem test_wf_sample_sets :
    SampleFrame.wf ⟨0, 0, 0, []⟩ = false ∧ SampleFrame.wf ⟨0, 0, 0, List.replicate 17 (Quad.fill 0)⟩ = false ∧
      SampleFrame.wf ⟨0, 0, 0, List.replicate 16 (Quad.fill 0)⟩ = true := by decide +kernel

theorem test_wf_status_body :
    (Instr.controlFrameReceive (.status 0 (zeros 17))).wf = false ∧
      (Instr.controlFrameReceive (.status 0 (zeros 16))).wf = true := by decide +kernel

theorem test_wf_pod_reply_body :
    (Instr.controlFrameReceive (.podReply 0 0 (zeros 65))).wf = false ∧
      (Instr.controlFrameReceive (.podReply 0 0 (zeros 64))).wf = true := by decide +kernel

/-- A POD_NOTICE frame that passes every test of R181 is no rejected frame; with a byte changed it is one. -/
theorem test_wf_reject :
    (Instr.uFrameReject ⟨true, controlBytes (.podNotice 1 2 true)⟩).wf = false ∧
      (Instr.uFrameReject ⟨true, [0x04, 1, 0x83, 0, 0]⟩).wf = true ∧
      (Instr.dFrameReject ⟨true, withCrc [0x21, 7, 0, 0xFF, 3, 0, 0]⟩).wf = false := by decide +kernel

theorem test_wf_command :
    (Instr.command .instantAdvance).wf = false ∧ (Instr.command (.command (.softReset env))).wf = false ∧
      (Instr.command (.softReset env)).wf = true := by decide +kernel

theorem test_wf_codes :
    (Instr.unknownCommand 0 5).wf = false ∧ (Instr.unknownCommand 0 37).wf = false ∧
      (Instr.unknownCommand 0 0).wf = true ∧ (Instr.unknownCommand 0 38).wf = true := by decide +kernel

theorem test_wf_forwarded :
    (Instr.forwardedCommand 0 0xFF 1 []).wf = false ∧ (Instr.forwardedCommand 0 0 1 (zeros 1530)).wf = false ∧
      (Instr.forwardedCommand 0 0 1 (zeros 1529)).wf = true := by decide +kernel

theorem test_wf_text :
    (Instr.siteOpen env 1 (zeros 256)).wf = false ∧ (Instr.noteAdd env 1 0 (zeros 256) []).wf = false ∧
      (Instr.siteOpen env 1 (zeros 255)).wf = true := by decide +kernel

/-! ### Worked cases of the spec -/

/-- The check field of the nine digits "123456789", as the polynomial and initial value of 00_scope.md give it. -/
theorem test_crc : crc16 (ascii ['1', '2', '3', '4', '5', '6', '7', '8', '9']) = 0x29B1#16 := by decide +kernel

/-- The worked case of chapter 03: S = 12,800,000,000 over 64 instants. -/
theorem test_rms_worked_case : rmsCode 12800000000 64 = 14142 ∧ 14142 * 1000 / 16000 = 883 := by decide +kernel

/-- Ts 900, Ti 100, Tw 1100, Hy 20 and Nc 16,000, as in the worked cases of chapter 03. -/
def worked : ThresholdEntry := ⟨true, 16000, 900, 100, 1100, 20⟩

/-- The worked sequence of chapter 03: channel 4's states at closes 501, 502, 504, 505 and 506. -/
theorem test_dip_that_deepens :
    judgeNormal worked 14142 = some (.dip, .dip) ∧ judgeEvent worked .dip 1200 = .interrupted ∧
      judgeEvent worked .interrupted 2000 = .dip ∧ judgeEvent worked .dip 14600 = .dip ∧
      judgeEvent worked .dip 14750 = .normal ∧ judgeNormal worked 15900 = none := by decide +kernel

/-- Phase steps of the worked sequence of chapter 02. -/
theorem test_phase_steps :
    phaseStep 122 = 68759 ∧ phaseStep 140 = 59918 ∧ phaseStep 116 = 72315 ∧ phaseStep 128 = 65536 := by decide +kernel

/-- Table indexes of the worked case of chapter 05: φ = 61 × 68,759, orders 1 and 3. -/
theorem test_phase_index : phaseIndex 1 (61 * 68759) = 63 ∧ phaseIndex 3 (61 * 68759) = 63 := by decide +kernel

/-- C and S at the quarters of a turn (R89). -/
theorem test_tables :
    cosTable 0 = 32767 ∧ cosTable 32 = 0 ∧ cosTable 64 = -32767 ∧ cosTable 96 = 0 ∧ sinTable 32 = 32767 ∧
      sinTable 96 = -32767 ∧ cosTable 16 = 23170 ∧ cosTable 112 = 23170 := by decide +kernel

/-- Amplitudes of the worked case of chapter 05, with N = 1024. -/
theorem test_amplitudes_worked_case :
    amplitude 1024 (0, 343586897920) = 20480 ∧ amplitude 1024 (10000000000, 10000000000) = 843 := by decide +kernel

/-- Ratios and THD of the worked case of chapter 05. -/
theorem test_distortion_worked_case :
    ratio 20480 843 = 411 ∧ ratio 20480 512 = 250 ∧ ratio 20480 20480 = 10000 ∧
      distortion 20480 [0, 843, 512, 0] = 481 := by decide +kernel

/-- The aggregate of the worked case of chapter 05: the first window folded, the second void. -/
theorem test_aggregate_worked_case :
    let a := ((Aggregate.zero 5 4).fold [20480, 0, 843, 512, 0]).voided
    (a.valid, a.void, a.noFund, a.thdSum, a.bins[2]?) = (1, 1, 0, 481, some ⟨843, 843, 411⟩) := by decide +kernel

/-- F for 8 cycles of 128 instants at 50 Hz, and for 8 cycles that span 1,026 instants: 128000 × 50 × 8 / 1026 rounded (R87). -/
theorem test_frequency : frequency 50 8 1024 = 50000 ∧ frequency 50 8 1026 = 49903 := by decide +kernel

/-- The block reads of the worked readout of chapter 06: record 5120 of 3,000 bytes from offset 1,100. -/
theorem test_readout_worked_case :
    readoutKeep 3000 1100 = 52 ∧ readoutKeep 3000 1152 = 64 ∧ readoutKeep 3000 2944 = 56 := by decide +kernel

/-- A 1,300-byte record goes out as frames of 512, 512 and 276 bytes (R205). -/
theorem test_record_frames :
    (recordFrames 3 3 0 (zeros 1300)).map (fun f => (f.offset, f.data.length, f.last)) =
      [(0, 512, false), (512, 512, false), (1024, 276, true)] := by decide +kernel

/-- Frames as R204 lays them out, written byte by byte, without their check fields. -/
theorem test_frame_bytes :
    sampleBody ⟨2, 0x11, 0x04030201, [⟨1, 0xFFFF, 2, 0x8000⟩]⟩ =
        [0xC1, 0x11, 0x01, 0x02, 0x03, 0x04, 0x01, 0, 0xFF, 0xFF, 0x02, 0, 0, 0x80] ∧
      controlBody (.attach 0x00A1B2C3D4E5 ⟨.voltage, .voltage, .voltage, .current⟩) =
        [0x01, 0xE5, 0xD4, 0xC3, 0xB2, 0xA1, 0, 0x95] ∧
      controlBody (.podNotice 3 5 true) = [0x04, 3, 0x85] ∧
      upBody (.grant 0x00A1B2C3D4E5 .ok (some 2) 1000050 50) =
        [0x11, 0xE5, 0xD4, 0xC3, 0xB2, 0xA1, 0, 0, 2, 0x72, 0x42, 0x0F, 0, 0, 0, 50] ∧
      upBody (.podEnd 1 4) = [0x15, 1, 4] ∧ upBody (.podAck 2 3) = [0x14, 2, 3] ∧
      upBody (.detach 3 0x00A1B2C3D4E5) = [0x12, 3, 0xE5, 0xD4, 0xC3, 0xB2, 0xA1, 0] ∧
      upBody (.podCommand 1 0x0203 [9, 8]) = [0x13, 1, 3, 2, 9, 8] ∧ noticeBody 7 0x0580 = [0x32, 7, 0x80, 0x05] := by decide +kernel

/-- The rows of R205 and R206 that open a record, a gap run, a section header and a trend entry. -/
theorem test_record_bytes :
    recordHead 2 0x21 0x0C 0x1400 0x0BB8 = [2, 0x21, 0x0C, 0, 0, 0x14, 0, 0, 0xB8, 0x0B, 0, 0] ∧
      itemBytes (.gapRun 71) = [0, 0x80, 71, 0] ∧ itemBytes (.header .post) = [1, 0x80, 3, 0] ∧
      itemBytes (.set ⟨0x8001, 0x8000, 0, 1⟩) = [2, 0x80, 0, 0x80, 0, 0, 1, 0] ∧
      itemBytes (.trend ⟨0x1F4, 64, true, false, ⟨none, some 0x3E80, none, some 1⟩⟩) =
        [64, 0x15, 0xF4, 1, 0, 0, 0x80, 0x3E, 0, 0, 1, 0] := by decide +kernel

/-- Command codes of R204: the first, the last, and two between. -/
theorem test_command_codes :
    commandCode (.tableLoadBin (head 0 1) []) = some 1 ∧ commandCode (.recordRead env 1 0) = some 22 ∧
      commandCode (.printCancel penv 1) = some 29 ∧ commandCode (.noticePolling env true) = some 37 := by decide +kernel

/-- No row of the table has bits, so no word spells one. -/
theorem test_no_word : decodeTableWord 8 3 = none ∧ State.reset.withFetchWord 8 3 = State.reset := ⟨rfl, rfl⟩

/-! ### What meets the statements' hypotheses: the block and its invariants -/

/-- A command run while a reply waits. -/
def waitingReply (s : State) : State := s.setCmd ⟨[], none, some (1, 3), some someReply, 0⟩

/-- CommandsAreTakenInTurn, each clause: a reply waits; a wrong length; a parked part; a forwarded command of a parked part. -/
theorem test_turn_witness :
    (isCommand (.softReset env) = true ∧ ¬Ready (.softReset env) (waitingReply base)) ∧
      (envelope (.softReset badEnv) = some badEnv ∧ commandCode (.softReset badEnv) = some 5 ∧
        Ready (.softReset badEnv) base ∧ badEnv.lengthOk = false) ∧
      (refusedWhileParked (.park env none) = true ∧ envelope (.park env none) = some env ∧
        commandCode (.park env none) = some 26 ∧ Ready (.park env none) (asleep base) ∧ env.lengthOk = true ∧
        (asleep base).parked = true) ∧
      ((3#8).toNat < 4 ∧ Ready (.forwardedCommand 1 3 9 []) (asleep base)) := by unfold Ready; decide +kernel

/-- A queued command waits while another has left the queue to be run, and leaves it as that one is answered. -/
theorem test_turn_by_the_head :
    let s := base.setCmd ⟨[.release env], some (.hold env), none, none, 0⟩
    after (.release env) s = s ∧ (after (.hold env) s).cmd = ⟨[], some (.release env), none, none, 0⟩ := by decide +kernel

/-- A part whose store accounts for its pages: a COMPLETE record of site 5 on page 0, pinned by note 1. -/
def filed : State :=
  { State.reset with
    store := { Store.reset with
      free := (List.range 16383).map Nat.succ, nextId := 2
      dir := [⟨1, .episode, 5, .complete, [0], 88, 0, 0, 1, 0, 0⟩] }
    sites := ⟨[⟨5, [], .opened, 0, none, 1, 0, 1, 1, 1⟩], [⟨1, 5, 0, 0, [], [⟨1, .live⟩]⟩], 2⟩ }

/-- A watched channel with the worked thresholds, in a state with an event or without. -/
def watched (st : EventState) (e : Option EventEntry) : ChannelState :=
  { ChannelState.reset with inForce := worked, state := st, event := e }

/-- An open event of channel 4. -/
def eventOf (kind : EventKind) : EventEntry := ⟨4, kind, 64001, 64064, 1, 14142, 883, EventFlags.clear⟩

/-- `pod` with an open DIP on channel 4. -/
def dipping : State := pod.setChan 4 (watched .dip (some (eventOf .dip)))

/-- A channel by channel check of the open events. -/
theorem events_of (s : State) (h : ∀ c, (s.chan c).event.all (fun e => e.chan == c) = true) : EventsOk s := by
  intro c e w
  have := h c
  rw [w] at this
  simpa using this

theorem test_keep_witness :
    MemOk (filed.setStore { filed.store with mem := [(3, 1), (9, 2)] }) ∧ QueuesOk filed ∧ CountersOk filed ∧
      (EventsOk dipping ∧ (dipping.chan 4).event.isSome) ∧
      step (filed.setPending [.instantAdvance]) = .next (afterInstantAdvance filed) :=
  ⟨by unfold MemOk; decide +kernel, by constructor <;> decide +kernel, by unfold CountersOk; decide +kernel,
    ⟨events_of _ (by decide +kernel), by decide +kernel⟩, rfl⟩

/-- Sources 2 and 7 in service, the most urgent first. -/
theorem test_service_witness :
    NoticeOk { NoticeUnit.reset with service := [⟨2, none⟩, ⟨7, some (2, 9, 0)⟩] } ∧
      NoticeOk { NoticeUnit.reset with mode := .rotating, service := [⟨7, none⟩] } := by
  refine ⟨⟨?_, ?_, ?_⟩, ⟨?_, ?_, ?_⟩⟩ <;> decide +kernel

theorem test_registry_witness : RegistryOk filed.sites.registry := by constructor <;> decide +kernel

theorem test_slots_witness : SlotsOk pod ∧ SlotsOk (phased .ending |>.setSlot 0
    { PodSlot.reset with phase := .ending, serial := 9, endReason := some .quiet }) := by
  constructor <;> (intro i; refine ⟨?_, ?_, ?_, ?_, ?_⟩ <;> revert i <;> decide +kernel)

theorem range_succ_perm (m n : Nat) (h : n = m + 1) : ((List.range m).map Nat.succ ++ [0]).Perm (List.range n) := by
  rw [h, List.range_succ_eq_map]
  exact List.perm_append_singleton 0 _

theorem test_pages_witness : StoreOk filed where
  ascending := by decide +kernel
  below := by decide +kernel
  taken := by decide +kernel
  pages := by
    simp only [filed, List.flatMap_cons, List.flatMap_nil, List.append_nil]
    exact range_succ_perm 16383 16384 rfl
  claims := by decide +kernel
  captures := by decide +kernel
  apart := by decide +kernel
  episode := by decide +kernel
  harmonic := by decide +kernel

theorem test_pins_witness : PinsOk filed := by constructor <;> decide +kernel

theorem test_level_witness :
    SlotsOk filed ∧ hasSource filed.notices.requests 7 = cascadeHolds filed ∧
      hasSource filed.notices.requests 4 = storeLow filed := by
  refine ⟨fun i => ?_, by decide +kernel, ?_⟩
  · refine ⟨?_, ?_, ?_, ?_, ?_⟩ <;> revert i <;> decide +kernel
  · simp [storeLow, freeCount, filed, claimed, Store.reset, NoticeUnit.reset, hasSource, State.reset, EpisodeUnit.reset,
      HarmonicEngine.reset]

theorem test_stall_witness :
    JobsOk filed.print.jobs ∧ hasSource filed.notices.requests 8 = stallHolds filed := by unfold JobsOk; decide +kernel

theorem test_counts_witness : SiteCountsOk filed := by constructor <;> decide +kernel

/-- UpstreamFramesReadBack: frames of 1 and of 16 sets, a body of each boundary length, and the greatest numbers of GRANT, RECORD
and POD_END. -/
theorem test_frames_witness :
    SampleFrame.wf ⟨3, 255, 0xFFFFFFFF, [Quad.fill 0x8000]⟩ = true ∧
      SampleFrame.wf ⟨0, 0, 0, List.replicate 16 (Quad.fill 1)⟩ = true ∧
      (ControlFrame.status 3 (zeros 16)).wf = true ∧ (ControlFrame.podReply 0 0xFFFF (zeros 64)).wf = true ∧
      (ControlFrame.status 3 []).wf = true ∧
      (CommandFrame.mk 7 0xFF 22 (zeros 1529)).parameters.length ≤ 1529 ∧ (zeros 255).length ≤ 255 ∧
      ((⟨0xFFFFFFFF, 0xFFFFFE00, true, zeros 512⟩ : RecordFrame).id < 2 ^ 32 ∧
        (⟨0xFFFFFFFF, 0xFFFFFE00, true, zeros 512⟩ : RecordFrame).data.length ≤ 512) ∧
      (281474976710655 < 2 ^ 48 ∧ 255 < 256) := by decide +kernel

/-- A REPLY of outcome BAD_TABLE and a COMMAND as R204 lays them out, byte by byte. -/
theorem test_reply_and_command_bytes :
    (downBytes [9] (.reply ⟨0x0102, 3, .badTable, true, .failing 9⟩)).take 7 = [0x31, 2, 1, 3, 3, 1, 9] ∧
      parseCommand (withCrc [0x21, 7, 0, 0xFF, 22, 1, 2]) = some ⟨7, 0xFF, 22, [1, 2]⟩ := by decide +kernel

theorem test_sample_reads_back :
    parseUpstream (sampleBytes ⟨3, 255, 0xFFFFFFFF, [⟨0x8000, 1, 0xFFFF, 7⟩]⟩) =
      some (.sample ⟨3, 255, 0xFFFFFFFF, [⟨0x8000, 1, 0xFFFF, 7⟩]⟩) := by decide +kernel

/-- The queue of rows survives a power-on. -/
theorem test_power_on :
    let t := after .powerOn ((base.setPending [.attach]).setInstant 77)
    t.pending = [.attach] ∧ t.instant = 0 ∧ t.store.nextId = 1 := ⟨rfl, rfl, rfl⟩

/-! ### Pod sessions and sample lanes -/

theorem test_quiet_witness : pod.isActive 0 = true ∧ pod.isActive 1 = false := by decide +kernel

/-- The session ends with the capture IDLE: the slot is EMPTY at once. -/
theorem test_quiet_empties :
    ((after (.quietTimerExpiry 0) pod).slot 0).phase = .empty ∧
      (after (.quietTimerExpiry 0) pod).session.event = some ⟨some 0, 9, .ended (some .quiet)⟩ := by decide +kernel

/-- An accepted frame of `n` sets in an ingress queue. -/
def frameOf (n next : Nat) : IngressFrame := ⟨n, next, List.replicate n (Quad.fill 1), false⟩

/-- Slot 0 of `pod` with an ingress queue and a last sequence. -/
def queued (q : List IngressFrame) (last : Option Byte) : State :=
  pod.setSlot 0 { podAt 0 with ingress := q, lastSeq := last }

/-- A frame of one set at an instant. -/
def oneSet (first : BitVec 32) : SampleFrame := ⟨0, 4, first, [Quad.fill 1]⟩

/-- SampleFramesAreJudgedInOrder, each clause, at the boundaries: not ACTIVE; a first instant of 2000, which has not passed;
one above the counter, which no number extends; a repeated sequence; 896 bytes used, which leave 128; 888, which leave
136; 1..16 sets. -/
theorem test_sample_witness :
    (base.slot 0).phase ≠ .active ∧ (pod.slot 0).phase = .active ∧
      (extendInstant pod.instant (oneSet 2000).first).all (fun v => decide (pod.instant < v + 1)) = true ∧
      extendInstant pod.instant 2001 = none ∧ ((queued [] (some 4)).slot 0).lastSeq = some (oneSet 1999).seq ∧
      (extendInstant pod.instant (oneSet 1999).first = some 1999 ∧ 1999 + 1 ≤ pod.instant) ∧
      1024 - ingressUsed ((queued (List.replicate 7 (frameOf 15 0)) none).slot 0).ingress < 136 ∧
      1024 - ingressUsed ((queued (frameOf 14 0 :: List.replicate 6 (frameOf 15 0)) none).slot 0).ingress = 136 ∧
      (1 ≤ (oneSet 0).sets.length ∧ (oneSet 0).sets.length ≤ 16) := by decide +kernel

/-- The extended instant is the number in c − 2³² + 1 .. c with the field's low 32 bits. -/
theorem test_extend_instant :
    extendInstant 0x100000005 6 = some 6 ∧ extendInstant 0x100000005 5 = some 0x100000005 := by decide +kernel

theorem test_sample_accepted :
    ((after (.sample (oneSet 1999)) pod).slot 0).ingress = [⟨1, 1999, [Quad.fill 1], false⟩] ∧
      (after (.sample (oneSet 2000)) pod).session.stray = 1 := by decide +kernel

/-- A control queue. -/
def withControl (q : List ControlFrame) (s : State) : State := s.setSession { s.session with control := q }

/-- FramesJoinTheQueueOrAreCounted, each clause: 7 and 8 frames queued, and line frames that fail each test. -/
theorem test_control_witness :
    (withControl (List.replicate 7 (.status 0 [])) base).session.control.length < 8 ∧
      8 ≤ (withControl (List.replicate 8 (.status 0 [])) base).session.control.length ∧
      frameSlot pod (.status 0 []) = some 0 ∧ judgeUp ⟨false, [1, 2, 3]⟩ = some .crc ∧
      judgeUp ⟨true, [1, 2]⟩ = some .frame ∧ judgeDown ⟨true, [0x21, 2, 3]⟩ = some .crc ∧
      judgeDown ⟨true, withCrc [0x22, 0, 0, 0, 0]⟩ = some .frame := by decide +kernel

theorem test_reject_counts :
    (after (.uFrameReject ⟨true, [4, 1]⟩) base).dport.frameErrorsU = 1 ∧
      (after (.uFrameReject ⟨true, [4, 1, 0x83, 0, 0]⟩) base).dport.crcErrorsU = 1 ∧
      (after (.dFrameReject ⟨false, [0x21]⟩) base).dport.crcErrorsD = 1 := by decide +kernel

/-- AttachOfAHeldSlotIsAnsweredAgain: an ACTIVE slot and one in ENDING. -/
theorem test_attach_held_witness :
    let q := withControl [.attach 9 (Quad.fill .voltage)]
    (matching (q pod) 9 = some 0 ∧ ((q pod).slot 0).phase = .active) ∧
      (matching (q (phased .ending)) 9 = some 0 ∧ ((q (phased .ending)).slot 0).phase = .ending) := by decide +kernel

/-- Every slot ACTIVE. -/
def crowded : State := indexes.foldl (fun s i => s.setSlot i { podAt 0 with serial := BitVec.ofNat 48 (9 + i.val) }) pod

/-- Slot 0 in DEBOUNCE with a count. -/
def debouncing (n : Nat) : State :=
  base.setSlot 0
    { PodSlot.reset with
      phase := .debounce, serial := 9, kinds := Quad.fill .voltage, debounceCount := n, debounceTimer := some 0 }

/-- AttachBeginsASessionByDebounce, each clause: parked; no EMPTY slot; an EMPTY slot; other kinds; counts 1 and 2. -/
theorem test_debounce_witness :
    (matching (asleep base) 9 = none ∧ (asleep base).parked = true) ∧
      (matching crowded 99 = none ∧ crowded.parked = false ∧ lowestEmpty crowded = none) ∧
      (matching pod 99 = none ∧ lowestEmpty pod = some 1) ∧
      (matching (debouncing 1) 9 = some 0 ∧ ((debouncing 1).slot 0).phase = .debounce ∧
        Quad.fill Kind.current ≠ ((debouncing 1).slot 0).kinds) ∧
      (Quad.fill Kind.voltage = ((debouncing 1).slot 0).kinds ∧ ((debouncing 1).slot 0).debounceCount + 1 < 3) ∧
      ((debouncing 2).slot 0).debounceCount + 1 = 3 := by decide +kernel

/-- The third ATTACH of the worked sequence of chapter 01: the lane starts after boundary 15,626 at 1,000,031. -/
theorem test_third_attach :
    let s := (debouncing 2).setTracker { Tracker.reset with newest := some (15626, 1000031) }
    let t := after .attach (withControl [.attach 9 (Quad.fill .voltage)] s)
    ((t.slot 0).phase, (t.slot 0).lane.map (fun l => (l.position, l.lastBoundary))) =
        (.active, some (1000032, 15626)) ∧
      t.session.event = some ⟨some 0, 9, .attached⟩ := by decide +kernel

theorem test_debounce_expires :
    ((after (.debounceTimerExpiry 0) (debouncing 2)).slot 0).phase = .empty ∧
      hasSource (after (.debounceTimerExpiry 0) (debouncing 2)).notices.requests 6 = true := by decide +kernel

/-- PodFramesAreTakenFromTheHead, each clause: slot 0 ACTIVE, slot bytes 3 and 4 not. -/
theorem test_head_witness :
    namedActive pod 0 = some 0 ∧ namedActive pod 3 = none ∧ namedActive pod 4 = none ∧ pod.dport.reply.length < 8 ∧
      8 ≤ (fullReply pod).dport.reply.length := by decide +kernel

/-- OVER_RANGE sets the lane's clip mark and raises POD_CASCADE; a slot byte of 4 is stray. -/
theorem test_pod_notice :
    let t := after .podNotice (withControl [.podNotice 0 0 true] pod)
    (t.slot 0).pendingSet = 1 ∧ (t.slot 0).lane.map (fun l => l.clipMark) = some true ∧
      hasSource t.notices.requests 7 = true ∧
      (after .statusFrame (withControl [.status 4 []] pod)).session.stray = 1 := by decide +kernel

theorem test_pod_reply :
    (after .podReply (withControl [.podReply 0 5 [1]] pod)).dport.inFlight = some (.podReply 0 5 [1], .reply) ∧
      (after .podReply (withControl [.podReply 0 5 [1]] (fullReply pod))).session.podReplyDrops = 1 := by decide +kernel

/-- PodCommandsActByTheSlot, each clause: the four phases, and slot numbers 3 and 4. -/
theorem test_pod_commands_witness :
    (Ready (.podDetach env 0) pod ∧ pod.parked = false ∧ (pod.slot 0).phase = .active) ∧
      ((debouncing 1).slot 0).phase = .debounce ∧ ((phased .ending).slot 0).phase = .ending ∧
      (base.slot 3).phase = .empty ∧ (4 ≤ 4 ∧ Ready (.podDetach env 4) base ∧ Ready (.slotPassthrough env 4 true) base) ∧
      Ready (.slotPassthrough env 3 true) base := by unfold Ready; decide +kernel

theorem test_detach :
    outcomes (after (.podDetach env 0) pod) = [.ok] ∧ ((after (.podDetach env 0) pod).slot 0).phase = .empty ∧
      (after (.podDetach env 0) pod).session.upInFlight = some (.detach 0 9) ∧
      outcomes (after (.podDetach env 3) base) = [.noPod] := by decide +kernel

theorem test_passthrough :
    ((after (.slotPassthrough env 3 true) base).slot 3).passthrough = true ∧
      outcomes (after (.slotPassthrough env 4 true) base) = [.badParam] := by decide +kernel

/-- Slot 0's lane at an instant with frames queued; every instant below 2000 is decided, and the boundaries of a list are
made. -/
def laneAt (position : Nat) (q : List IngressFrame) (list : List Boundary) : State :=
  (pod.setSlot 0 { podAt position with ingress := q }).setTracker
    { Tracker.reset with decision := some 1999, list := list }

/-- The lane at instant 10 with a frame it has taken, whose next set is at an instant. -/
def laned (next : Nat) (list : List Boundary) : State := laneAt 10 [⟨2, next, [Quad.fill 3, Quad.fill 4], true⟩] list

/-- The lane at instant 10 with a frame not yet taken, of sets 3 and 4 from an instant on. -/
def untaken (next : Nat) : State := laneAt 10 [⟨2, next, [Quad.fill 3, Quad.fill 4], false⟩] []

/-- A boundary of the list. -/
def boundaryOf (number instant : Nat) (d : Direction) : Boundary := ⟨number, instant, d, false, 0, none⟩

/-- LanesProcessAndResync, each clause: a data instant, a gap instant one before the next set, a lane whose next boundary has
left the list; an empty queue, and instant 2000, not yet decided; a frame not yet taken that begins at the position, one that
ends below it, and one that straddles it. -/
theorem test_lane_witness :
    let free (s : State) := ((s.slot 0).lane.map (fun l => l.position)) = some 10 ∧ CountersOk s ∧
      published s 0 10 = true ∧ s.tracker.follows 0 = false
    free (laned 10 []) ∧ free (laned 11 [boundaryOf 1 11 .rising]) ∧
      (laned 11 [boundaryOf 1 11 .rising]).tracker.list.all (fun b => b.number != 1 || b.instant != 10) = true ∧
      (podAt 10).lane.bind (lagging (laned 10 [])) = none ∧
      (podAt 10).lane.bind (lagging (laned 10 [boundaryOf 2 70 .rising])) = some (boundaryOf 2 70 .rising) ∧
      (((laneAt 10 [] []).slot 0).ingress = [] ∧ (busyPort (laneAt 10 [] [])).store.holder ≠ .none) ∧
      (published (laneAt 2000 [frameOf 1 2000] []) 0 2000 = false ∧ pod.session.stray ≤ 65535) ∧
      (10 ≤ 10 ∧ ((untaken 10).slot 0).ingress.map (fun f => (f.next, f.taken)) = [(10, false)]) ∧
      (8 < 10 ∧ 8 + ([Quad.fill 3, Quad.fill 4] : List SampleSet).length ≤ 10) ∧
      (9 < 10 ∧ 10 < 9 + ([Quad.fill 3, Quad.fill 4] : List SampleSet).length) := by
  unfold CountersOk; decide +kernel

theorem test_lane_data_and_gap :
    ((after (.laneInstant 0) (laned 10 [])).slot 0).lane.map (fun l => (l.position, l.hTotal, l.sumSquares, l.gapMark)) =
        some (11, 1, Quad.fill 9, false) ∧
      ((after (.laneInstant 0) (laned 11 [])).slot 0).lane.map (fun l => (l.position, l.dataCount, l.gapMark)) =
        some (11, Quad.fill 0, true) ∧
      (let t := after (.laneInstant 0) (untaken 9)
       (t.session.stray, (t.slot 0).lane.map (fun l => l.sumSquares), (t.slot 0).ingress) = (1, some (Quad.fill 16), [])) ∧
      (after (.laneInstant 0) (untaken 8)).session.stray = 1 := by decide +kernel

/-- LaneClosesItsHalfCycle: the boundary after the lane's last one stands at the instant it processes. -/
theorem test_close_witness :
    let s := laned 10 [boundaryOf 1 10 .rising]
    (published s 0 10 = true ∧ s.tracker.follows 0 = false ∧ (podAt 10).lane.bind (lagging s) = none) ∧
      s.tracker.list.find? (fun b => b.number == 0 + 1 && b.instant == 10) = some (boundaryOf 1 10 .rising) := by
  decide +kernel

/-- The half-cycle of one instant of code 3 has RMS code 3; a resync to boundary 2 leaves the lane after instant 70. -/
theorem test_close :
    let t := after (.laneInstant 0) (laned 10 [boundaryOf 1 10 .rising])
    let u := after (.laneInstant 0) (laned 70 [boundaryOf 2 70 .rising])
    (t.slot 0).lane.map (fun l => (l.position, l.lastBoundary, l.hTotal)) = some (11, 1, 0) ∧
      (t.chan 0).held = some 3 ∧
      ((u.slot 0).lane.map (fun l => (l.position, l.lastBoundary, l.halfStart)), u.session.laneResyncs) =
        (some (71, 2, 71), 1) ∧
      (u.slot 0).ingress.map (fun f => (f.next, f.sets)) = [(71, [Quad.fill 4])] := by decide +kernel

/-! ### The cycle tracker -/

/-- The tracker of `pod` in a mode, at a position, with the reference lane of slot 0 at an instant. -/
def tracking (m : TrackerMode) (position forced closes lane : Nat) : State :=
  (pod.setSlot 0 (podAt lane)).setTracker
    { Tracker.reset with
      mode := m, position := position, reference := some 0, decision := some 1990, forcedRun := forced
      crossingCloses := closes }

/-- FreeTrackerDecidesPassedInstants, each clause: parked; the 63rd instant of a half-cycle and the 64th in FREE, with no reference
and with one; SEEKING with the reference lane 1024 instants back, and each mode with it 1025 back. -/
theorem test_free_witness :
    (asleep base).parked = true ∧
      (pod.tracker.mode = .free ∧ pod.tracker.reference = none ∧ pod.tracker.position + 1 < 64) ∧
      64 ≤ ({ Tracker.reset with position := 63 } : Tracker).position + 1 ∧
      ((tracking .seeking 0 0 0 977).tracker.mode ≠ .free ∧ (0 : Chan).slot = 0 ∧
        laneNear ((tracking .seeking 0 0 0 977).setInstant 2001) 0 = true) ∧
      ((tracking .free 62 0 0 977).tracker.reference = some 0 ∧ (tracking .free 62 0 0 977).tracker.mode = .free ∧
        62 + 1 < 64 ∧ laneNear ((tracking .free 62 0 0 977).setInstant 2001) 0 = true ∧ 64 ≤ 63 + 1 ∧
        laneNear ((tracking .free 63 0 0 977).setInstant 2001) 0 = true) ∧
      ∀ m ∈ [TrackerMode.free, .seeking, .locked], (tracking m 0 0 0 976).tracker.reference = some 0 ∧
        laneNear ((tracking m 0 0 0 976).setInstant 2001) 0 = false := by decide +kernel

/-- A reference lane 1025 instants back is handed over with STALLED, the tracker FREE and every passed instant decided. -/
theorem test_stalled :
    let t := (after .instantAdvance (tracking .locked 10 0 0 976)).tracker
    (t.mode, t.reference, t.decision, t.handoverCount) = (.free, none, some 2000, 1) ∧
      t.change.map (fun c => (c.reason, c.previous, c.next)) = some (.stalled, some 0, none) := by decide +kernel

/-- The sixty-fourth instant of FREE closes the half-cycle in the direction opposite to the last. -/
theorem test_free_close :
    let t := after .instantAdvance (pod.setTracker { Tracker.reset with position := 63, nextNumber := 201 })
    (t.instant, t.tracker.position, t.tracker.decision) = (2001, 0, some 2000) ∧
      t.tracker.list = [⟨201, 2000, .rising, false, 0, some (128, 65536)⟩] := by decide +kernel

/-- BoundariesCarryTheirCycle: a RISING boundary after a RISING and a FALLING one, and the shorter lists. -/
theorem test_boundary_witness :
    let list := [boundaryOf 201 12863 .rising, boundaryOf 202 12921 .falling]
    (list = [] ++ [boundaryOf 201 12863 .rising, boundaryOf 202 12921 .falling] ∧ TrackerMode.locked ≠ .free) ∧
      [boundaryOf 202 12921 .falling].length < 2 := by decide +kernel

/-- Boundary 203 of the worked sequence of chapter 02: L_prev 122 and s 68,759. -/
theorem test_boundary_203 :
    (makeBoundary 12985 .rising .locked 64 (pod.setTracker
      { Tracker.reset with
        mode := .seeking, nextNumber := 203
        list := [boundaryOf 201 12863 .rising, boundaryOf 202 12921 .falling] })).2 =
      ⟨203, 12985, .rising, false, 0, some (122, 68759)⟩ := by decide +kernel

/-- CrossingsDecideSeekingAndLocked, each clause at its boundary: positions 52, 51, 75 and 76, the first and second crossing of
SEEKING, the third and fourth forced close of LOCKED. -/
theorem test_crossing_witness :
    ((tracking .locked 51 0 0 1990).tracker.mode ≠ .free ∧ 52 ≤ (tracking .locked 51 0 0 1990).tracker.position + 1) ∧
      (tracking .locked 50 0 0 1990).tracker.position + 1 ≤ 51 ∧ (tracking .locked 74 0 0 1990).tracker.position + 1 < 76 ∧
      (76 ≤ (tracking .locked 75 2 0 1990).tracker.position + 1 ∧ (tracking .locked 75 2 0 1990).tracker.forcedRun + 1 < 4) ∧
      4 ≤ (tracking .locked 75 3 0 1990).tracker.forcedRun + 1 ∧
      ((tracking .seeking 75 0 1 1990).tracker.mode = .seeking ∧
        2 ≤ (tracking .seeking 75 0 1 1990).tracker.crossingCloses + 1) := by decide +kernel

/-- Slot 0's lane, the reference's, at instant 10 with a set of a code, its half-cycle `h` instants old, in a mode with a
decision point. -/
def crossing (m : TrackerMode) (h decision : Nat) (x : List SampleSet) : State :=
  let s := pod.setSlot 0 { podAt 10 with
    ingress := [if x.isEmpty then frameOf 1 11 else ⟨1, 10, x, true⟩].map (fun f => { f with taken := true })
    lane := (podAt 10).lane.map (fun l => { l with hTotal := h }) }
  s.setTracker { Tracker.reset with mode := m, reference := some 0, decision := some decision, position := h, side := .low }

/-- CrossingsDecideSeekingAndLocked on LANE_INSTANT: a set and a gap instant of a reference whose Nc is 0; in FREE positions 52 and
76 of the half-cycle; in LOCKED the instant after the decision point, and one before it. -/
theorem test_crossing_lane_witness :
    let ok (s : State) := published s 0 10 = true ∧ (podAt 10).lane.bind (lagging s) = none ∧
      s.tracker.reference = some 0 ∧ (0 : Chan).slot = 0 ∧ (s.chan 0).inForce.nc = 0 ∧ (s.chan 0).staged = none
    ok (crossing .free 51 1999 [Quad.fill 64]) ∧ ok (crossing .free 75 1999 []) ∧
      (51 + 1 = 52 ∧ 75 + 1 = 76 ∧ (64 : Code).toInt = (pod.survey.h : Int)) ∧
      (ok (crossing .locked 51 9 [Quad.fill 64]) ∧ 10 = (crossing .locked 51 9 []).tracker.undecided) ∧
      (ok (crossing .seeking 0 10 [Quad.fill 0]) ∧ 10 ≠ (crossing .seeking 0 10 []).tracker.undecided) := by decide +kernel

/-- `crossing` with 650 as the reference's nominal code. -/
def rated (m : TrackerMode) (h decision : Nat) (x : Int) : State :=
  ((crossing m h decision [Quad.fill (BitVec.ofInt 16 x)]).setInstant 12).setChan 0
    { watched .normal none with inForce := { worked with nc := 650 } }

/-- CrossingsDecideSeekingAndLocked, an ungapped half-cycle of a reference whose Nc is 650: an instant that closes nothing, a
close at RMS code 65, and one at 64. -/
theorem test_weak_witness :
    let made (s : State) := ((decideByCrossing 10 (some .rising) s).2.map (fun b => (b.number, b.instant)))
    (made (rated .locked 50 9 64) = none ∧ (podAt 10).lane.map (fun l => (l.gapMark, l.lastBoundary)) = some (false, 0)) ∧
      (made (rated .locked 51 9 65) = some (1, 10) ∧ ¬(rmsCode (65 ^ 2) 1 * 1000 < 650 * 100)) ∧
      (made (rated .locked 51 9 64) = some (1, 10) ∧ rmsCode (64 ^ 2) 1 * 1000 < 650 * 100 ∧
        ((rated .locked 51 9 64).chan 0).staged = none ∧ ((rated .locked 51 9 64).chan 0).inForce.nc = 650) := by
  decide +kernel

/-- A reference whose RMS code falls below a tenth of Nc at its lane's close is handed over with WEAK. -/
theorem test_weak :
    let t (x : Int) := (after (.laneInstant 0) (rated .locked 51 9 x)).tracker
    ((t 65).mode, (t 65).reference, (t 65).handoverCount, (t 65).change) = (.locked, some 0, 0, none) ∧
      ((t 64).mode, (t 64).reference, (t 64).handoverCount) = (.free, none, 1) ∧
      (t 64).change.map (fun c => (c.reason, c.previous, c.next)) = some (.weak, some 0, none) := by decide +kernel

/-- A code of 64 crosses to HIGH, one of 63 does not; in FREE only position 52 and on is accepted. -/
theorem test_crossing_lane :
    let mode (s : State) := ((after (.laneInstant 0) s).tracker.mode, (after (.laneInstant 0) s).tracker.side)
    mode (crossing .free 51 1999 [Quad.fill 64]) = (.seeking, .high) ∧
      mode (crossing .free 50 1999 [Quad.fill 64]) = (.free, .high) ∧
      mode (crossing .free 51 1999 [Quad.fill 63]) = (.free, .low) ∧
      (after (.laneInstant 0) (crossing .locked 51 9 [Quad.fill 64])).tracker.list.map (fun b => (b.instant, b.direction)) =
        [(10, .rising)] := by decide +kernel

theorem test_second_crossing_locks :
    (decideByCrossing 1991 (some .rising) (tracking .seeking 63 0 1 1990)).1.tracker.mode = .locked ∧
      (decideByCrossing 1991 none (tracking .locked 75 3 0 1990)).1.tracker.mode = .free ∧
      (decideByCrossing 1991 (some .rising) (tracking .locked 5 0 0 1990)).1.tracker.chatter = 1 := by decide +kernel

/-- `pod` with the REFERENCE table naming channel 5, whose slot is not ACTIVE, and then a channel. -/
def candidate (c : Nat) : State := pod.setTracker { Tracker.reset with table := ⟨some 5, some c, none, none⟩ }

/-- HandoverTakesTheFirstCandidate: no candidate qualifies; the second does; and a handover out of LOCKED. -/
theorem test_handover_witness :
    ((candidate 6).tracker.reference = none ∧
        (candidate 6).tracker.candidates.find? (qualifies ((candidate 6).setInstant 1024)) = none) ∧
      (candidate 2).tracker.candidates.find? (qualifies ((candidate 2).setInstant 1024)) = some 2 ∧
      (tracking .locked 0 0 0 1990).tracker.mode ≠ .free := by decide +kernel

theorem test_acquire :
    (acquire ((candidate 2).setInstant 1024)).tracker.reference = some 2 ∧
      (handover .lost (tracking .locked 0 0 0 1990)).tracker.change.map (fun c => (c.reason, c.previous, c.next)) =
        some (.lost, some 0, none) := by decide +kernel

/-! ### Half-cycle RMS and episodes -/

/-- A close of a lane at an instant. -/
def closeOf (number instant : Nat) : LaneClose :=
  ⟨number, some .rising, instant, instant - 63, Quad.fill 0, Quad.fill 64, 64, false, false, none⟩

/-- ChannelsFollowTheirThresholds, each row of R44 and R45 on both sides of its limit. -/
theorem test_thresholds_witness :
    ((watched .normal none).staged = none ∧ worked.watch = true ∧ 1 ≤ worked.nc) ∧
      (1599 * 1000 < 16000 * 100 ∧ 16000 * 100 ≤ 1600 * 1000 ∧ 14399 * 1000 < 16000 * 900 ∧ 16000 * 900 ≤ 14400 * 1000 ∧
        17600 * 1000 ≤ 16000 * 1100 ∧ 16000 * 1100 < 17601 * 1000) ∧
      (16000 * (900 + 20) ≤ 14720 * 1000 ∧ 14719 * 1000 < 16000 * (900 + 20) ∧ 16000 * (100 + 20) ≤ 1920 * 1000 ∧
        1919 * 1000 < 16000 * (100 + 20) ∧ 17280 * 1000 ≤ 16000 * (1100 - 20) ∧ 16000 * (1100 - 20) < 17281 * 1000) ∧
      ((watched .dip (some (eventOf .dip))).event = some (eventOf .dip) ∧
        (watched .swell (some (eventOf .swell))).state = .swell) := by decide +kernel

theorem test_thresholds :
    (takeChannel 4 true (closeOf 501 64064) (some 14142) (watched .normal none)).1.event =
        some ⟨4, .dip, 64001, 64064, 1, 14142, 883, EventFlags.clear⟩ ∧
      (takeChannel 4 true (closeOf 502 64128) (some 1200) (watched .dip (some (eventOf .dip)))).1.event.map
          (fun e => (e.kind, e.extreme, e.permille, e.halfCycles)) = some (.interruption, 1200, 75, 2) ∧
      (takeChannel 4 true (closeOf 506 64384) (some 14750) (watched .dip (some (eventOf .dip)))).1.state = .normal := by
  decide +kernel

/-- A gapped close. -/
def gapped : LaneClose := { closeOf 502 64128 with gap := true }

/-- ChannelsFollowTheirThresholds, the other closes: an entry staged with watch no and with other thresholds, a gapped close with an
event open and with none, an event without a watch, and a channel that is not eligible. -/
theorem test_staged_witness :
    let c := watched .dip (some (eventOf .dip))
    let off : ThresholdEntry := { worked with watch := false }
    (({ c with staged := some { worked with ts := 850 } } : ChannelState).staged = some { worked with ts := 850 } ∧
        { worked with ts := 850 } ≠ worked ∧ off.watch = false) ∧
      (gapped.gap = true ∧ c.staged = none ∧ c.event = some (eventOf .dip) ∧ c.inForce.watch = true) ∧
      (({ c with inForce := off } : ChannelState).event.isSome ∧ (watched .normal none).event = none) := by decide +kernel

/-- Watch no closes the event with UNWATCHED and counts the close; Ts 850 with Hy 20 ends a DIP at 870 permille; a gapped close
counts with GAPPED. -/
theorem test_staged :
    let c := watched .dip (some (eventOf .dip))
    let at_ (t : ThresholdEntry) (r : Nat) := takeChannel 4 true (closeOf 502 64128) (some r) { c with staged := some t }
    (at_ { worked with watch := false } 16000).2.1 =
        .closed ⟨4, .dip, 64001, 64128, 2, 14142, 883, { EventFlags.clear with unwatched := true }⟩ false ∧
      ((at_ { worked with ts := 850 } 13920).1.state, (at_ { worked with ts := 850 } 13919).1.state) = (.normal, .dip) ∧
      (at_ { worked with ts := 850 } 13919).1.event.map (fun e => e.flags.rethreshold) = some true ∧
      (takeChannel 4 true gapped none c).1.event.map (fun e => (e.halfCycles, e.flags.gapped, e.extreme)) =
        some (2, true, 14142) := by decide +kernel

/-- An open episode with one event of channel 4. -/
def openEpisodeOf : Episode :=
  ⟨5, 7, 501, 3, [(eventOf .dip, true)], 0, [], [4], EpisodeFlags.clear⟩

/-- An EPISODE record of site 5. -/
def recordOf : EpisodeRecord := ⟨5, 1, 0, 64, 0, 4, 883, [eventOf .dip], 0, [], EpisodeFlags.clear⟩

/-- EpisodesOpenAndCloseWithTheirEvents: one event and four; an outbox of 3 and of 4. -/
theorem test_episode_witness :
    (surveyed.openSite = some (siteOf 5) ∧ surveyed.episodes.current = none ∧ [eventOf .dip] ≠ [] ∧
        (List.replicate 4 (eventOf .dip)).length ≤ 4) ∧
      (openEpisodeOf.events ≠ [] ∧ (List.replicate 3 recordOf).length < 4 ∧ 4 ≤ (List.replicate 4 recordOf).length) := by
  decide +kernel

/-- Site 5 OPEN, and an open episode with the open DIP of channel 4, whose lane's half-cycle starts at 5000. -/
def splitting : State :=
  let s := (surveyed.setSlot 1 (podAt 5000)).setChan 4 { watched .dip (some (eventOf .dip)) with listed := true }
  s.setEpisodes { EpisodeUnit.reset with current := some openEpisodeOf }

/-- EpisodesOpenAndCloseWithTheirEvents, the split: the boundary 5999 after the episode's first, and the one before it. -/
theorem test_split_witness :
    openEpisodeOf.firstBoundary + 5999 ≤ 6500 ∧ 6499 < openEpisodeOf.firstBoundary + 5999 ∧
      (splitting.episodes.current = some openEpisodeOf ∧ splitting.openSite = some (siteOf 5) ∧
        openEpisodeOf.openChannels = [4] ∧ (splitting.chan 4).event = some (eventOf .dip) ∧ (eventOf .dip).chan = 4 ∧
        (splitting.chan 4).listed = true ∧ (splitting.slot (4 : Chan).slot).lane.isSome ∧
        splitting.episodes.outbox.length < 4) := by decide +kernel

theorem test_split_registry : RegistryOk splitting.sites.registry := by constructor <;> decide +kernel

theorem test_split :
    let t := splitIfDue 6500 splitting
    splitIfDue 6499 splitting = splitting ∧
      t.episodes.outbox.map (fun r => (r.number, r.flags.continues)) = [(7, true)] ∧
      t.episodes.current.map (fun e => (e.number, e.firstBoundary, e.flags.continuation)) = some (1, 6501, true) ∧
      (t.chan 4).event.map (fun e => (e.start, e.halfCycles, e.flags.continuation)) = some (5000, 0, true) := by
  decide +kernel

theorem test_episode_registry : RegistryOk surveyed.sites.registry := by constructor <;> decide +kernel

theorem test_episode_opens_and_closes :
    (openEpisode 501 [eventOf .dip] surveyed).episodes.current.map (fun e => (e.site, e.number, e.firstBoundary)) =
        some (5, 1, 501) ∧
      (closeEpisode (surveyed.setEpisodes { EpisodeUnit.reset with current := some openEpisodeOf })).episodes.outbox =
        [⟨5, 7, 64001, 64064, 3, 4, 883, [eventOf .dip], 0, [], EpisodeFlags.clear⟩] := by decide +kernel

/-! ### Waveform capture -/

/-- Slot 0's capture in PRE one set behind its lane, with the staging buffer `n` bytes short of full. -/
def inPre (n : Nat) : State :=
  busyPort ((pod.setSlot 0 (podAt 102)).setCap 0
    { CaptureSlot.reset with
      phase := .pre, recordId := some 1, first := some 100, ring := [some (Quad.fill 1), some (Quad.fill 2)], ringWrite := 2
      preUnread := 2, staging := List.replicate ((2048 - n) / 8) ⟨.set (Quad.fill 0), Counts.zero⟩ })

/-- CapturesMoveEntriesIntoStaging, the reads of PRE: eight bytes free are enough. -/
theorem test_pre_witness :
    let s := inPre 8
    let c := s.cap 0
    (s.store.holder ≠ .none ∧ c.phase = .pre ∧ c.preNext = some 100 ∧ 100 + 1 < 102 ∧ c.preLimit = none ∧
        c.ring[c.readPos]? = some (some (Quad.fill 1)) ∧ c.headerDue = none ∧ c.waiting = [] ∧ c.behind = [] ∧ c.held = Counts.zero ∧
        c.runDue = false) ∧
      itemsSize c.staging + busyBytes s 0 + 8 ≤ 2048 := by decide +kernel

theorem test_pre_read :
    ((after (.capturePreRead 0) (inPre 2048)).cap 0).staging = [⟨.set (Quad.fill 1), ⟨1, 0, 0, 0⟩⟩] ∧
      after (.capturePreRead 0) (inPre 0) = inPre 0 := by decide +kernel

/-- A held gap run that waits for its four bytes. -/
def heldRun (n free : Nat) : State :=
  busyPort (pod.setCap 0
    { CaptureSlot.reset with
      phase := .during, recordId := some 1, held := ⟨0, n, 0, 0⟩, runDue := true
      staging := List.replicate ((2048 - free) / 4) ⟨.gapRun 1, Counts.zero⟩ })

/-- CapturesMoveEntriesIntoStaging, a held gap run of 1 and of 65534, with room for it and without. -/
theorem test_held_witness :
    let ok (s : State) (n : Nat) := s.store.holder ≠ .none ∧ (s.cap 0).waiting = [] ∧ (s.cap 0).behind = [] ∧
      (s.cap 0).runDue = true ∧ 0 < (s.cap 0).held.instants ∧ (s.cap 0).held.instants = n ∧ n < 65535
    let size (s : State) := itemsSize (s.cap 0).staging + busyBytes s 0 + 4
    (ok (heldRun 1 2048) 1 ∧ size (heldRun 1 2048) ≤ 2048) ∧ (ok (heldRun 65534 4) 65534 ∧ size (heldRun 65534 4) ≤ 2048) ∧
      (ok (heldRun 1 0) 1 ∧ 2048 < size (heldRun 1 0)) := by decide +kernel

/-- Slot 0's capture at the lane's instant 10, with a held gap run of `n` instants and `free` bytes of staging left, and the next set
of the lane at an instant. -/
def taking (p : CapturePhase) (n free : Nat) (due : Bool) (next : Nat) : State :=
  let s := laned next []
  busyPort (s.setCap 0
    { CaptureSlot.reset with
      phase := p, recordId := some 1, first := some 5, held := ⟨0, n, 0, 0⟩, runDue := due
      staging := List.replicate ((2048 - free) / 4) ⟨.gapRun 1, Counts.zero⟩ })

/-- CapturesMoveEntriesIntoStaging, the instants of DURING and POST: a set with 8 bytes free and no held run, and with 12 and one;
a gap instant that joins a run of 65533 with no room for it; a set that finds 4 bytes free. -/
theorem test_take_witness :
    let ok (s : State) := (s.cap 0).flags.lean = false ∧ (s.cap 0).first = some 5 ∧ (s.cap 0).waiting = [] ∧
      (s.cap 0).headerDue = none ∧ (s.cap 0).behind = []
    let used (s : State) := itemsSize (s.cap 0).staging + busyBytes s 0
    (ok (taking .during 0 8 false 10) ∧ used (taking .during 0 8 false 10) + 8 ≤ 2048) ∧
      (ok (taking .post 3 12 false 10) ∧ used (taking .post 3 12 false 10) + 8 + 4 ≤ 2048) ∧
      (ok (taking .post 65533 0 true 11) ∧ 2048 < used (taking .post 65533 0 true 11) + 4 ∧ 65533 + 1 < 65535) ∧
      (ok (taking .during 5 4 false 10) ∧ 2048 < used (taking .during 5 4 false 10) + 8) := by decide +kernel

theorem test_take_lane_witness :
    let free (s : State) := ((s.slot 0).lane.map (fun l => (l.position, l.lastBoundary))) = some (10, 0) ∧ CountersOk s ∧
      published s 0 10 = true ∧ (podAt 10).lane.bind (lagging s) = none ∧ s.tracker.follows 0 = false ∧
      s.store.holder ≠ .none ∧ s.tracker.list = []
    free (taking .during 0 8 false 10) ∧ free (taking .post 65533 0 true 11) := by unfold CountersOk; decide +kernel

/-- A set without room is dropped for a gap instant: the held run grows and is not closed, and its row finds no run to place. -/
theorem test_dropped_set :
    let t := after (.laneInstant 0) (taking .during 5 4 false 10)
    let c := t.cap 0
    (c.held, c.counts, c.runDue, c.flags.skipped, itemsSize c.staging) = (⟨0, 6, 0, 0⟩, ⟨0, 1, 0, 0⟩, false, true, 2044) ∧
      ((after (.heldGapRunPlace 0) t).cap 0).held = ⟨0, 6, 0, 0⟩ ∧
      (let d := (after (.laneInstant 0) (taking .post 3 12 false 10)).cap 0
       (d.staging.drop 509, d.held.instants) =
        ([⟨.gapRun 3, ⟨0, 3, 0, 0⟩⟩, ⟨.set (Quad.fill 3), ⟨0, 0, 1, 0⟩⟩], 0)) := by decide +kernel

/-- A LEAN capture leaves the read position at the first place of the ring; one in PRE reads from the oldest (R65). -/
theorem test_lean_begin :
    let c : CaptureSlot := { CaptureSlot.reset with
      entry := ⟨true, 1, 4⟩, ring := List.replicate 128 none, ringWrite := 5, readPos := 9 }
    let start (lean : Bool) := c.begin 1 5 (Quad.fill .voltage) none none lean none
    ((start true).readPos, (start true).phase) = (0, .trend) ∧ ((start false).readPos, (start false).phase) = (5, .pre) := by
  decide +kernel

/-- A capture that settles when an episode opens, with a list of episodes. -/
def settling (p : CapturePhase) (episodes : Nat) (lean : Bool) : State :=
  (pod.setEpisodes { EpisodeUnit.reset with current := some openEpisodeOf }).setCap 0
    { CaptureSlot.reset with
      phase := p, recordId := some 1, episodes := List.range episodes, episodesClosed := true
      flags := { CaptureFlags.clear with lean := lean } }

/-- CapturesMoveEntriesIntoStaging, an episode that opens as a capture settles: in POST and in PRE, with lists of 3 and 4, and
LEAN. -/
theorem test_join_witness :
    let ok (s : State) := s.isActive 0 = true ∧ (s.cap 0).entry.enabled = true ∧ (s.cap 0).recordId = some 1 ∧
      s.episodes.current = some openEpisodeOf
    (ok (settling .post 3 false) ∧ ((settling .post 3 false).cap 0).phase = .post) ∧
      (ok (settling .post 4 true) ∧ 4 ≤ ((settling .post 4 true).cap 0).episodes.length) ∧
      (ok (settling .pre 3 false) ∧ ((settling .pre 3 false).cap 0).phase = .pre ∧
        ((settling .pre 3 false).cap 0).flags.manual = false ∧ ((settling .pre 3 false).cap 0).episodesClosed = true ∧
        ((settling .pre 3 false).cap 0).episodes.length < 4) := by decide +kernel

/-- A capture of less than 128 half-cycles goes on in DURING with a WAVEFORM section; a LEAN one in TREND. -/
theorem test_join :
    let of (s : State) := ((episodeOpenedOn 5 7 s 0).cap 0)
    ((of (settling .post 3 false)).phase, (of (settling .post 3 false)).headerDue) = (.during, some .waveform) ∧
      (of (settling .post 3 true)).phase = .trend ∧ (of (settling .pre 3 false)).phase = .pre ∧
      ((of (settling .post 4 false)).phase, (of (settling .post 4 false)).pending) = (.closing, some 7) := by decide +kernel

/-- A run closed by a change of section with no room stays held, and the next gap instant joins it ahead of the new header. -/
theorem test_held_run :
    ((after (.heldGapRunPlace 0) (heldRun 71 2048)).cap 0).staging = [⟨.gapRun 71, ⟨0, 71, 0, 0⟩⟩] ∧
      ((after (.heldGapRunPlace 0) (heldRun 71 2048)).cap 0).held = Counts.zero ∧
      (let c := (((heldRun 71 0).cap 0).changeSection .post 0).takeGap .post 0
       (c.heldRun, c.runDue, c.waiting, c.behind) = (72, true, [], [.post])) := by decide +kernel

/-- A ring of 128 places that holds `n` entries. -/
def ringOf (n : Nat) : CaptureSlot :=
  { CaptureSlot.reset with entry := ⟨true, 1, 4⟩, ring := List.replicate n none, ringWrite := n % 128 }

/-- CapturesMoveEntriesIntoStaging, the ring: one place free, and full. -/
theorem test_ring_witness :
    (0 < (ringOf 127).entry.pre ∧ (ringOf 127).ring.length < 1 * 128 ∧ (ringOf 127).ringWrite = (ringOf 127).ring.length) ∧
      ((ringOf 128).ring.length = 1 * 128 ∧ (ringOf 128).ringWrite < 1 * 128) := by decide +kernel

/-- A forced capture in PRE counts a close both as a half-cycle and down (R66, R76). -/
theorem test_close_in_pre :
    let c := ({ CaptureSlot.reset with
      phase := .pre, remaining := 2, flags := { CaptureFlags.clear with manual := true } } : CaptureSlot).closePre 70
    (c.halfCycles, c.remaining) = (1, 1) := by decide +kernel

/-! ### Harmonic analysis -/

/-- The phase mark that a directionless close clears is set again at the next RISING close (R88), but not in a lane window that
started without a direction (R90). -/
theorem test_phase_mark :
    let l : HarmonicLane := ⟨some 1000, 2, false, false, true, false, 5, 6, []⟩
    let k : LaneClose :=
      ⟨1003, some .rising, 64192, 64129, Quad.fill 0, Quad.fill 64, 64, false, false, some 65536⟩
    let after (x : HarmonicLane) := (closePhase k (closePhase { k with direction := none, step := none } x)).phaseMark
    (after l, after { l with undirected := true }) = (true, false) := by decide +kernel

/-- WindowFiguresFollowTheFormulas: fundamentals of 16 and 15, and an aggregate of two bins. -/
theorem test_figures_witness :
    16 ≤ 16 ∧ 15 < 16 ∧ (Aggregate.zero 2 4).bins.length = [843].length + 1 ∧
      [20480, 843][1]? = some 843 ∧ (Aggregate.zero 2 4).bins[1]? = some ⟨0, 0, 0⟩ := by decide +kernel

theorem test_no_fundamental : ratio 15 843 = 0 ∧ distortion 15 [843] = 0 ∧ ratio 16 1 = 625 := by decide +kernel

/-- A window of site 5's current interval with its end open, after a number of closes. -/
def windowOf (closes : Nat) : Window := ⟨1000, none, .current, 64 * closes, closes, true, 0, false, Quad.fill false⟩

/-- An interval of site 5 with M = 3 that watches channels 0 and 4. -/
def intervalOf : Interval :=
  { site := 5, bins := [1, 2, 3], m := 3, exclude := true, startBoundary := 1000, start := 64001, windows := 0, stop := 64000
    cycles := 0, lengthSum := 0, flags := ⟨false, false, false⟩, channels := [Aggregate.zero 3 0, Aggregate.zero 3 4] }

/-- `pod` in the middle of a window. -/
def inWindow (closes : Nat) : State :=
  pod.setHarmonic { HarmonicEngine.reset with schedule := [windowOf closes], current := some intervalOf }

/-- WindowsSpanSixteenHalfCycles: a start with the schedule empty; the fifteenth and the sixteenth close. -/
theorem test_window_witness :
    (pod.openSite = some (siteOf 5) ∧ (boundaryOf 1000 64000 .rising).direction = .rising ∧ pod.harmonic.staged = none ∧
        ∀ w ∈ pod.harmonic.schedule, w.stop.isSome ∧ w.start ≠ 1000) ∧
      ((inWindow 14).harmonic.schedule = [] ++ [windowOf 14] ∧ (windowOf 14).stop = none ∧ (windowOf 14).closes < 15) ∧
      ((windowOf 15).closes = 15 ∧ (windowOf 15).done.get 0 = false ∧ (windowOf 15).interval = .current ∧
        (inWindow 15).harmonic.current = some intervalOf ∧ intervalOf.windows + 1 < intervalOf.m) := by decide +kernel

/-- The window of the worked sequence of chapter 05 that starts at boundary 1000 ends at 1016. -/
theorem test_window_end :
    (windowBoundary (boundaryOf 1015 64960 .falling) 64 (inWindow 14)).harmonic.schedule.map (fun w => (w.closes, w.stop)) =
        [(15, none)] ∧
      (windowBoundary (boundaryOf 1016 65024 .rising) 64 (inWindow 15)).harmonic.schedule.map (fun w => (w.length, w.stop)) =
        [(1024, some 1016)] := by decide +kernel

/-! ### The record store -/

/-- RecordBytesReadBackAndAreFramed: bytes across a page boundary of a chain of two pages, up to its last byte. -/
theorem test_bytes_witness :
    memWf [(3, 1), (5, 1)] = true ∧ [3, 7].Nodup ∧ 1020 + [1#8, 2, 3, 4, 5, 6].length ≤ [3, 7].length * 1024 ∧ 2044 + (zeros 4).length = [3, 7].length * 1024 ∧
      ∀ k, k < 6 → chainAddr [3, 7] (1020 + k) ≠ 4098 := by decide +kernel

theorem test_bytes_cross_a_page :
    writeRecord [] [3, 7] 1020 [1, 2, 3, 4, 5, 6] =
        [(4092, 1), (4093, 2), (4094, 3), (4095, 4), (7168, 5), (7169, 6)] ∧
      readRecord (writeRecord [] [3, 7] 1020 [1, 2, 3, 4, 5, 6]) [3, 7] 1022 4 = [3, 4, 5, 6] := by decide +kernel

/-- Writing 0 removes the entry. -/
theorem test_canonical : writeByte (writeByte [] 5 9) 5 0 = [] ∧ memWf (writeByte (writeByte [] 5 9) 2 1) = true := by
  decide +kernel

/-- A HARMONIC record of site 5. -/
def harmonicOf : HarmonicRecord := ⟨5, 1, 64001, 67072, 3, 50000, ⟨false, false, false⟩, [1, 2, 3], []⟩

/-- `surveyed` with the port taken, a free-page list, and a record in each outbox. -/
def outboxes (pages : Nat) : State :=
  let s := busyPort (surveyed.setStore { surveyed.store with free := List.range pages })
  (s.setEpisodes { EpisodeUnit.reset with outbox := [recordOf] }).setHarmonic { HarmonicEngine.reset with outbox := [harmonicOf] }

/-- WritersAdmitTheOldestRecord, each clause: no such site; one page left; and the reserve of 8 with one page. -/
theorem test_admit_witness :
    let s := outboxes 1
    let h := outboxes 9
    (s.episodes.writer = none ∧ s.episodes.outbox = [recordOf] ∧ (s.setSites SiteUnit.reset).site recordOf.site = none ∧
        (s.setSites SiteUnit.reset).site harmonicOf.site = none) ∧
      ((s.site recordOf.site).isSome ∧ s.store.holder ≠ .none ∧ placesUsed s < 1024 ∧ idLeft s = true ∧
        pagesFor recordOf.length = freeCount s) ∧
      ((h.site harmonicOf.site).isSome ∧ h.store.holder ≠ .none ∧ placesUsed h < 1024 ∧ idLeft h = true ∧
        pagesFor harmonicOf.length + 8 = freeCount h) := by decide +kernel

theorem test_admit :
    (after .episodeWriteStart (outboxes 1)).episodes.writer = some ⟨[0], 0, none⟩ ∧
      (after .harmonicWriteStart (outboxes 9)).harmonic.writer = some ⟨[0], 0, none⟩ ∧
      (after .harmonicWriteStart (outboxes 8)).harmonic.lost = 1 := by decide +kernel

/-- `outboxes` with no page free, a pinned entry on page 0 and `n` entries that nothing pins. -/
def reclaiming (n : Nat) : State :=
  withDir ({ entryOf 1 0 .complete with pins := 1 } :: (List.range n).map (fun k => entryOf (k + 2) (k + 1) .complete)) (outboxes 0)

/-- WritersAdmitTheOldestRecord, RECLAIM: a request that nothing can satisfy, one that reclaim satisfies, and one that it does not
although an entry goes. -/
theorem test_reclaim_witness :
    let kept (d : DirEntry) : Prop := d.state = .complete → d.pins ≠ 0 ∨ d.holds ≠ 0
    (pagesAllowed 0 1 (reclaiming 0) = false ∧ (∀ d ∈ (reclaiming 0).store.dir, kept d) ∧
        requestAll (pagesAllowed 0 1) (reclaiming 0) = (reclaiming 0, false)) ∧
      (((reclaiming 2).store.dir.map (fun d => d.id)).Nodup ∧
        (reclaiming 2).store.dir = [{ entryOf 1 0 .complete with pins := 1 }] ++ entryOf 2 1 .complete ::
          [entryOf 3 2 .complete] ∧ kept { entryOf 1 0 .complete with pins := 1 } ∧ ¬kept (entryOf 2 1 .complete)) ∧
      ((requestAll placeFree (reclaiming 2)).2 = true ∧ (requestAll (pagesAllowed 0 1) (reclaiming 2)).2 = true ∧
        (reclaiming 2).store.holder ≠ .none ∧ idLeft (reclaiming 2) = true) ∧
      (requestAll (pagesAllowed 8 1) (reclaiming 2)).2 = false := by decide +kernel

/-- The oldest entry that nothing pins goes, and no more than is needed; where none is left the record is lost and what went stays
gone. -/
theorem test_reclaim :
    let t := after .episodeWriteStart (reclaiming 2)
    let u := after .harmonicWriteStart (reclaiming 2)
    (t.store.dir.map (fun d => d.id), t.store.free, t.store.reclaimed) = ([1, 3], [1], 1) ∧
      t.episodes.writer = some ⟨[1], 0, none⟩ ∧
      (u.store.dir.map (fun d => d.id), u.store.free, u.harmonic.lost) = ([1], [1, 2], 1) := by decide +kernel

/-- A burst of two capture entries in progress: entry 1 holds 64 bytes on page 3. -/
def capturing : State :=
  let s := withDir [⟨1, .capture, 5, .writing, [3], 64, 0, 0, 0, 0, 0⟩] pod
  (s.setCap 0 { CaptureSlot.reset with phase := .during, recordId := some 1 }).setStore
    { s.store with
      holder := .primary
      burst := some (.captureItems 0 [⟨.gapRun 71, ⟨0, 71, 0, 0⟩⟩, ⟨.set (Quad.fill 1), ⟨0, 1, 0, 0⟩⟩]) }

theorem test_burst_witness :
    (capturing.cap 0).recordId = some 1 ∧ (capturing.entry 1).map (fun e => e.state) = some .writing ∧
      (capturing.store.dir.map (fun d => d.id)).Nodup := by decide +kernel

/-- The burst of the header of a capture that closes, with slot 0 in a phase, and one instant counted or none. -/
def heading (p : SlotPhase) (n : Nat) : State :=
  let s := capturing.setSlot 0 { PodSlot.reset with phase := p, serial := 9, endReason := some .quiet }
  (s.setCap 0 { CaptureSlot.reset with
    phase := .closing, recordId := some 1, first := some 70, counts := ⟨0, n, 0, 0⟩ }).setStore
    { s.store with burst := some (.captureHeader 0) }

/-- A burst of the readout of entry 1, of 600 bytes, from a next offset with a buffer held. -/
def fetching (next buffer : Nat) : State :=
  let s := busyPort (withDir [entryOf 1 0 .complete] surveyed)
  s.setStore { s.store with
    burst := some .readoutRead, readout := ⟨.reading, true, 1, next, 0, List.replicate buffer 5, []⟩ }

/-- CaptureBurstsAppendTheirBytes, the header's burst with the slot ACTIVE and in ENDING, and the readout's burst up to the frame's
512 bytes and up to the record's end. -/
theorem test_header_burst_witness :
    let ok (s : State) := s.store.burst = some (.captureHeader 0) ∧ (s.cap 0).recordId = some 1 ∧ (s.entry 1).isSome ∧
      (s.cap 0).pending = none ∧ ∀ j, j ≠ 0 → (s.cap j).work = false
    (ok (heading .active 1) ∧ ((heading .active 1).slot 0).phase ≠ .ending) ∧
      (ok (heading .ending 0) ∧ ((heading .ending 0).slot 0).phase = .ending) ∧
      ((fetching 512 512).store.burst = some .readoutRead ∧ ((fetching 512 512).entry 1).isSome) ∧
      (fetching 576 24).store.readout.next = 576 := by decide +kernel

/-- A capture that took nothing has the first instant 0xFF; the last block of a 600-byte record gives 24 bytes. -/
theorem test_header_burst :
    let t := after (.storeBurstEnd .present) (heading .ending 0)
    (t.entry 1).map (fun e => e.state) = some .complete ∧ readRecord t.store.mem [3] 24 6 = List.replicate 6 0xFF ∧
      ((t.cap 0).phase, (t.slot 0).phase, hasSource t.notices.requests 2) = (.idle, .empty, true) ∧
      readRecord (after (.storeBurstEnd .present) (heading .active 1)).store.mem [3] 24 6 = [70, 0, 0, 0, 0, 0] ∧
      (let r := (after (.storeBurstEnd .present) (fetching 576 24)).store.readout
       (r.next, r.buffer.length, r.carry, r.state) = (600, 48, [], .reading)) := by decide +kernel

/-- Twelve bytes behind the header's 64, on page 3. -/
theorem test_burst :
    let t := after (.storeBurstEnd .present) capturing
    (t.entry 1).map (fun e => e.length) = some 76 ∧ readRecord t.store.mem [3] 64 6 = [0, 0x80, 71, 0, 1, 0] ∧
      t.store.holder = .none := by decide +kernel

/-- `capturing` with an open DIP on channel 2 in the open episode, a reference, and an interval of one window. -/
def losing (ref : Option Chan) : State :=
  let v : EventEntry := { eventOf .dip with chan := 2 }
  let s := (capturing.setChan 2 { watched .dip (some v) with listed := true }).setEpisodes
    { EpisodeUnit.reset with current := some { openEpisodeOf with events := [(v, true)], openChannels := [2] } }
  (s.setTracker { Tracker.reset with mode := .locked, reference := ref, decision := some 1999 }).setHarmonic
    { HarmonicEngine.reset with schedule := [windowOf 3], current := some { intervalOf with windows := 1 } }

/-- `pod` with a window of an interval that has ended, pending for slots 0 and 1. -/
def windowPending : State :=
  pod.setHarmonic { HarmonicEngine.reset with
    schedule := [{ windowOf 16 with interval := .ending, stop := some 1016 }], ending := some intervalOf }

/-- QuietExpiryEndsTheSession, the other blocks: the last event of the open episode, a capture that takes entries, the reference lost
and kept, the interval that watches the slot with a window and with none, and a window pending for two slots. -/
theorem test_session_end_witness :
    let e : Episode := { openEpisodeOf with
      events := [({ eventOf .dip with chan := 2 }, true)], openChannels := [2] }
    let s := losing (some 2)
    (s.isActive 0 = true ∧ s.episodes.current = some e ∧ e.openChannels ≠ [] ∧
        (∀ c ∈ e.openChannels, c.slot = 0 ∧ (s.chan c).event.map (fun v => v.chan) = some c) ∧
        s.episodes.outbox.length < 4 ∧ (s.chan 2).listed = true) ∧
      ((s.cap 0).taking = true ∧ (s.cap 0).phase ≠ .idle ∧ (pod.cap 0).phase = .idle) ∧ s.tracker.follows 0 = true ∧
      ((losing (some 4)).tracker.follows 0 = false ∧ (losing (some 4)).tracker.reference.isSome) ∧
      (({ intervalOf with windows := 1 } : Interval).watches 0 = true ∧ s.harmonic.ending = none ∧
        s.harmonic.outbox.length < 2 ∧ intervalOf.windows = 0 ∧ pod.tracker.mode = .free) ∧
      (windowPending.harmonic.current = none ∧ windowPending.harmonic.ending = some intervalOf ∧
        (windowOf 16).done.get 0 = false ∧ (windowOf 16).done.get 1 = false ∧ windowPending.tracker.follows 0 = false) := by
  decide +kernel

theorem test_session_end_events : EventsOk (losing (some 2)) := events_of _ (by decide +kernel)

/-- The quiet end of a slot in use, block by block. -/
theorem test_session_end :
    let t := after (.quietTimerExpiry 0) (losing (some 2))
    ((t.slot 0).phase, (t.cap 0).phase, (t.cap 0).flags.podLost) = (.ending, .closing, true) ∧
      t.tracker.change.map (fun c => (c.reason, c.previous, c.next)) = some (.lost, some 2, none) ∧
      t.episodes.outbox.map (fun r => r.events.map (fun e => e.flags.podLost)) = [[true]] ∧
      (after (.quietTimerExpiry 0) (losing (some 4))).harmonic.outbox.map (fun r => (r.flags.cut, r.windows)) =
        [(true, 1)] ∧
      (after (.quietTimerExpiry 0) windowPending).harmonic.schedule.map (fun w => w.done.get 0) = [true] := by
  decide +kernel

/-- The burst of the first block of each writer's record in progress, with id 8 taken. -/
def completing (b : Burst) (record : Nat) : State :=
  let s := (surveyed.setEpisodes { EpisodeUnit.reset with outbox := [recordOf], writer := some ⟨[2], 1, some 8⟩ }).setHarmonic
    { HarmonicEngine.reset with outbox := [harmonicOf], writer := some ⟨[4], 0, some 8⟩ }
  (s.setStore { s.store with burst := some b, holder := .secondary .episode, nextId := 9 }).setDport
    { DPort.reset with record := List.replicate record ⟨1, 0, true, []⟩ }

/-- The burst of a HARMONIC record's first block with the periodic queue full and a frame in flight. -/
def late : State :=
  let s := completing (.harmonicBlock 0) 0
  s.setDport { s.dport with periodic := [⟨5, []⟩, ⟨6, []⟩], inFlight := some (.reply someReply, .reply) }

/-- FirstBlocksCompleteTheirRecords: an EPISODE record with 31 and with 32 record frames queued, auto-send on and off; a
HARMONIC record with one record in the periodic queue and with two; the burst of block 1. -/
theorem test_complete_witness :
    let s := completing (.episodeBlock 0) 31
    (s.episodes.writer = some ⟨[2], 1, some 8⟩ ∧ s.episodes.outbox = [recordOf] ∧ s.entry 8 = none ∧ nextSlot s = none ∧
        s.survey.autoSend = true) ∧
      (s.setSurvey ⟨50, 64, false⟩).survey.autoSend = false ∧
      (recordFrames 8 ((episodeBytes recordOf 8).length / 512 + 1) 0 (episodeBytes recordOf 8)).length = 1 ∧
      s.dport.record.length + 1 ≤ 32 ∧ 32 < (completing (.episodeBlock 0) 32).dport.record.length + 1 ∧
      ((completing (.harmonicBlock 0) 0).harmonic.writer = some ⟨[4], 0, some 8⟩ ∧
        nextSlot (completing (.harmonicBlock 0) 0) = none ∧ [(⟨7, []⟩ : RecordCopy)].length < 2) ∧
      ((late.dport.periodic.map (fun c => c.id) = [5, 6] ∧ late.dport.inFlight.isSome ∧
          late.harmonic.writer = some ⟨[4], 0, some 8⟩ ∧ late.harmonic.outbox = [harmonicOf] ∧ late.entry 8 = none ∧
          nextSlot late = none)) ∧
      (0 < 1 ∧ (completing (.episodeBlock 1) 0).store.burst = some (.episodeBlock 1) ∧
        (completing (.episodeBlock 1) 0).episodes.writer = some ⟨[2], 1, some 8⟩ ∧
        nextSlot (completing (.episodeBlock 1) 0) = none) ∧
      (completing (.harmonicBlock 1) 0).store.burst = some (.harmonicBlock 1) := by decide +kernel

theorem test_complete :
    let t := after (.storeBurstEnd .present) (completing (.episodeBlock 0) 0)
    t.store.dir.map (fun e => (e.id, e.kind, e.state, e.chain, e.length)) = [(8, .episode, .complete, [2], 88)] ∧
      readRecord t.store.mem [2] 0 15 = [1, 0, 5, 0, 8, 0, 0, 0, 88, 0, 0, 0, 1, 0, 1] ∧
      (after (.storeBurstEnd .present) (completing (.episodeBlock 0) 32)).episodes.skips = 1 ∧
      (let u := after (.storeBurstEnd .present) late
       (u.dport.periodic.map (fun c => c.id), u.harmonic.late, hasSource u.notices.requests 3) = ([6, 8], 1, true)) ∧
      (let u := after (.storeBurstEnd .present) (completing (.episodeBlock 1) 0)
       (u.store.dir, u.episodes.outbox, readRecord u.store.mem [2] 64 1) = ([], [recordOf], [4])) := by decide +kernel

/-- The three requesters of the worked sequence of chapter 06, all waiting, with the holder none and the readout last served. -/
def sharing (used : Nat) (h : Holder) : State :=
  let s := completing (.episodeBlock 0) 0
  let t := (withDir [⟨1, .capture, 5, .writing, [3], 64, 0, 0, 0, 0, 0⟩] s).setCap 0
    { CaptureSlot.reset with phase := .closing, recordId := some 1 }
  t.setStore { t.store with
    holder := h, used := used, burst := none, readout := ⟨.reading, true, 1, 0, 0, [], []⟩ }

/-- The primary alone, after a number of bursts of its grant, with eight entries of eight bytes and one more in staging. -/
def alone (used : Nat) : State :=
  let s := (withDir [⟨1, .capture, 5, .writing, [3], 64, 0, 0, 0, 0, 0⟩] pod).setCap 0
    { CaptureSlot.reset with
      phase := .during, recordId := some 1, staging := List.replicate 9 ⟨.set (Quad.fill 1), Counts.zero⟩ }
  s.setStore { s.store with holder := .primary, used := used }

/-- PortPassesByTheQuotas, each clause: nobody waits; a secondary alone; the primary; grants of seven and eight bursts, of
three and four; a stopped holder; quotas of 0; the primary alone below its quota and at it. -/
theorem test_port_witness :
    (base.store.holder = .none ∧ nextSlot base = none ∧ nextSecondary base base.store.lastServed = none) ∧
      (nextSlot (completing .stopped 0) = none ∧
        nextSecondary (completing .stopped 0) (completing .stopped 0).store.lastServed = some .episode) ∧
      (let s := sharing 8 .none
       nextSlot s = some 0 ∧ s.store.holder = .none ∧ nextSecondary s s.store.lastServed = some .episode ∧
        (if s.store.qs = 0 then 1 else s.store.qs) ≤ s.store.used ∧
        (if s.store.qp = 0 then 1 else s.store.qp) ≤ s.store.used) ∧
      ((sharing 3 (.secondary .readout)).store.used < 4 ∧ secondaryWaits (sharing 3 (.secondary .readout)) .readout = true) ∧
      (nextSlot (completing .stopped 0) = none ∧ nextSecondary (completing .stopped 0) .episode = some .harmonic) ∧
      nextSecondary base .composer = none ∧
      (nextSlot (alone 7) = some 0 ∧ (alone 7).store.used < 8 ∧ (alone 7).store.qp = 8) ∧
      (8 ≤ (alone 8).store.used ∧ nextSecondary (alone 8) (alone 8).store.lastServed = none) := by decide +kernel

/-- Both have a burst that begins without a page request: a header's, and one of entries. -/
theorem test_port_held_witness : CaptureBurstHeld 0 (sharing 8 .none) ∧ CaptureBurstHeld 0 (alone 8) :=
  ⟨⟨1, ⟨1, .capture, 5, .writing, [3], 64, 0, 0, 0, 0, 0⟩, by decide +kernel⟩,
    ⟨1, ⟨1, .capture, 5, .writing, [3], 64, 0, 0, 0, 0, 0⟩, by decide +kernel⟩⟩

/-- Grants 1, 2 and 5 of the worked sequence; the primary alone goes on with its eighth burst, and is granted anew after it. -/
theorem test_port :
    (arbitrate (sharing 0 .none)).store.holder = .primary ∧
      (afterPrimary (sharing 8 .primary)).store.holder = .secondary .episode ∧
      (afterSecondary .readout false (sharing 4 (.secondary .readout))).store.holder = .primary ∧
      (afterSecondary .readout false (sharing 3 (.secondary .readout))).store.holder = .secondary .readout ∧
      ((afterPrimary (alone 7)).store.used, ((afterPrimary (alone 7)).cap 0).staging.length) = (7, 1) ∧
      ((afterPrimary (alone 8)).store.used, (afterPrimary (alone 8)).store.holder) = (0, .primary) := by decide +kernel

/-- A readout of entry 1, of 600 bytes on page 0, PLACING the frame at an offset. -/
def placing (offset size : Nat) (carry : List Byte) (record : Nat) : State :=
  let s := busyPort (withDir [{ entryOf 1 0 .complete with holds := 1 }] surveyed)
  (s.setStore { s.store with readout := ⟨.placing, true, 1, offset + size, offset, List.replicate size 5, carry⟩ }).setDport
    { DPort.reset with record := List.replicate record ⟨1, 0, true, []⟩ }

/-- ReadoutFramesArePlaced, each clause: 29 and 28 frames queued, HOLD, the last frame and one before it. -/
theorem test_placing_witness :
    ((placing 0 512 [] 29).store.readout.state = .placing ∧ ((placing 0 512 [] 29).entry 1).isSome ∧
        (placing 0 512 [] 29).store.holder ≠ .none ∧ 28 < (placing 0 512 [] 29).dport.record.length) ∧
      ((placing 512 88 [] 28).dport.record.length ≤ 28 ∧ (placing 512 88 [] 28).dport.hold = false ∧ 600 ≤ 512 + 88) ∧
      0 + 512 < 600 := by decide +kernel

theorem test_placing :
    (after .readoutFramePlace (placing 0 512 [7] 29)) = placing 0 512 [7] 29 ∧
      ((after .readoutFramePlace (placing 0 512 [7] 0)).store.readout.buffer,
        (after .readoutFramePlace (placing 0 512 [7] 0)).store.readout.state) = ([7], .reading) ∧
      (after .readoutFramePlace (placing 512 88 [] 0)).store.readout.state = .none := by decide +kernel

/-- Entries 1 and 2 of site 5, the second WRITING. -/
def stored : State := withDir [entryOf 1 0 .complete, entryOf 2 1 .writing] (surveyed.setStore
  { surveyed.store with free := [2, 3] })

/-- A readout of entry 1 in progress. -/
def readingOut : State := stored.setStore { stored.store with readout := ⟨.reading, true, 1, 0, 0, [], []⟩ }

/-- RecordsAreListedAndRead, each clause: an entry that is WRITING; a readout in progress; the offsets 600 and 599 of 600
bytes. -/
theorem test_list_witness :
    (Ready (.recordList env (some 5) none 0) stored ∧ stored.parked = false) ∧
      (Ready (.recordRead env 2 0) stored ∧ stored.completeEntry 2 = none) ∧
      ((readingOut.completeEntry 1).isSome ∧ readingOut.store.readout.state ≠ .none) ∧
      (stored.completeEntry 1 = some (entryOf 1 0 .complete) ∧ stored.store.readout.state = .none ∧
        (entryOf 1 0 .complete).length ≤ 600 ∧ 599 < (entryOf 1 0 .complete).length) ∧
      ((busyPort stored).dport.reply.length < 8 ∧ (busyPort stored).store.holder ≠ .none) := by unfold Ready; decide +kernel

theorem test_read_outcomes :
    [(stored, 2, 0), (readingOut, 1, 0), (stored, 1, 600), (stored, 1, 599)].map
      (fun x => outcomes (after (.recordRead env x.2.1 x.2.2) x.1)) = [[.notFound], [.busy], [.badParam], [.ok]] := by
  decide +kernel

/-- Fifty entries: 48 are listed, and the list goes on at the next id. -/
theorem test_record_list :
    let s := withDir ((List.range 50).map (fun k => entryOf (k + 1) k .complete)) surveyed
    (after (.recordList env none (some .episode) 1) s).dport.inFlight.map (fun x => match x.1 with
      | .reply ⟨_, _, _, _, .records es more⟩ => (es.length, more)
      | _ => (0, none)) = some (48, some 49) := by decide +kernel

/-- ErasedRecordsFreeTheirPages, each clause. -/
theorem test_erase_witness :
    let pinned := withDir [{ entryOf 1 0 .complete with pins := 1 }] surveyed
    (Ready (.recordErase env 1) (asleep stored) ∧ (asleep stored).parked = true) ∧
      (stored.parked = false ∧ stored.entry 3 = none) ∧
      ((readingOut.entry 1).isSome ∧ readingOut.store.readout.state ≠ .none) ∧
      (stored.entry 2 = some (entryOf 2 1 .writing) ∧ stored.store.readout.state = .none) ∧
      ((pinned.entry 1).map (fun d => (d.state, d.pins)) = some (.complete, 1)) ∧
      ((entryOf 1 0 .complete).pins = 0 ∧ (entryOf 1 0 .complete).holds = 0) := by unfold Ready; decide +kernel

theorem test_erase :
    (after (.recordErase env 1) stored).store.free = [2, 3, 0] ∧
      (after (.recordErase env 1) stored).store.dir = [entryOf 2 1 .writing] ∧
      outcomes (after (.recordErase env 2) stored) = [.busy] := by decide +kernel

/-- `stored` with no site OPEN and no entry WRITING. -/
def quiet : State :=
  (withDir [entryOf 1 0 .complete] base).setSites ⟨[{ siteOf 5 with state := .closed, records := 1 }], [], 1⟩

/-- WipeAndConfigNeedAQuietStore, each clause: a site OPEN; a pinned entry; a quiet store; low marks of 15, 16, 4096 and
4097. -/
theorem test_wipe_witness :
    (Ready (.storeWipe env) stored ∧ stored.parked = false ∧ stored.openSite.isSome) ∧
      (Ready (.storeWipe env) quiet ∧ quiet.openSite = none ∧ writerOpen quiet = false ∧ anyAdmitted quiet = false ∧
        anyHeld quiet = false ∧ ∀ d ∈ quiet.store.dir, d.pins = 0) ∧
      (∃ d ∈ (withDir [{ entryOf 1 0 .complete with pins := 1 }] quiet).store.dir, d.pins ≠ 0) ∧
      (Ready (.storeConfig env 15 0 0) quiet ∧ storeIdle quiet = true) ∧
      (Ready (.storeConfig env 16 8 4) readingOut ∧ storeIdle readingOut = false) ∧ 15 < 16 ∧ 4096 < 4097 := by
  unfold Ready; decide +kernel

theorem test_wipe_and_config :
    (after (.storeWipe env) quiet).store.dir = [] ∧ outcomes (after (.storeWipe env) stored) = [.busy] ∧
      ([15, 16, 4096, 4097].map (fun n => (after (.storeConfig env n 8 4) quiet).store.lowMark)) = [16, 16, 4096, 4096] := by
  decide +kernel

/-- ParkKeepsTheNamedBanks, each clause: no retention; a site OPEN; a job queued; a quiet part; RESUME in each park state. -/
theorem test_park_witness :
    (Ready (.park env none) quiet ∧ quiet.parked = false) ∧ stored.openSite.isSome ∧
      (quiet.setPrint { PrintEngine.reset with jobs := [⟨1, 0, 5, .queued, .none, 0⟩] }).print.jobs ≠ [] ∧
      (Ready (.park env (some .half)) quiet ∧ quiet.openSite = none ∧ quiet.print.jobs = [] ∧
        quiet.store.readout.state = .none ∧ writerOpen quiet = false ∧ anyAdmitted quiet = false ∧
        (quiet.store.dir.map (fun d => d.id)).Nodup ∧ ∀ i, (quiet.slot i).phase ≠ .ending) ∧
      (Ready (.resume env) quiet ∧ quiet.parked = false) ∧ (Ready (.resume env) (asleep quiet) ∧ (asleep quiet).parked = true) := by
  unfold Ready; decide +kernel

/-- HALF keeps pages 0..8191: an entry on page 8192 is dropped, and its note's link is LOST. -/
theorem test_park :
    let s := (withDir [{ entryOf 1 8191 .complete with pins := 1 }, { entryOf 2 8192 .complete with pins := 1 }] quiet).setSites
      ⟨quiet.sites.registry, [⟨1, 5, 0, 0, [], [⟨1, .live⟩, ⟨2, .live⟩]⟩], 2⟩
    let t := after (.park env (some .half)) s
    t.store.dir.map (fun d => d.id) = [1] ∧ t.sites.notes.map (fun n => n.links) = [[⟨1, .live⟩, ⟨2, .lost⟩]] ∧
      t.store.parkState = .parked := by decide +kernel

theorem test_resume :
    outcomes (after (.resume env) quiet) = [.busy] ∧ (after (.resume env) (asleep quiet)).store.parkState = .active := by
  decide +kernel

/-- `pod` with eight free pages and a directory. -/
def forcing (dir : List DirEntry) : State :=
  let s := withDir dir pod
  s.setStore { s.store with free := List.range 8 }

/-- ForcedCapturesStartManual, each clause: parked; slots 3 and 4; counts 0, 1, 64 and 65; no site; no pod; a capture under way;
no id left; nine free pages; eight, with no entry to reclaim and with one. -/
theorem test_force_witness :
    let s := pod.setStore { pod.store with free := List.range 9 }
    let last := pod.setStore { pod.store with nextId := 4294967296 }
    (Ready (.captureForce env 0 1) (asleep pod) ∧ (asleep pod).parked = true) ∧
      (Ready (.captureForce env 4 1) pod ∧ pod.parked = false ∧ (4 ≤ 4 ∧ (0 = 0) ∧ 64 < 65)) ∧
      (Ready (.captureForce env 3 64) base ∧ base.openSite = none) ∧
      (pod.openSite = some (siteOf 5) ∧ pod.isActive 3 = false ∧ pod.isActive 0 = true ∧
        (capturing.cap 0).phase ≠ .idle ∧ capturing.isActive 0 = true) ∧
      (idLeft last = false ∧ (last.cap 0).phase = .idle ∧ (last.cap 0).pending = none) ∧
      (idLeft s = true ∧ placesUsed s < 1024 ∧ freeCount s = 9 ∧ (unclaimed s).head? = some 0 ∧
        s.entry s.store.nextId = none) ∧
      ((requestAll (pagesAllowed 8 1) (forcing [])).2 = false ∧
        (requestAll (pagesAllowed 8 1) (forcing [entryOf 1 20 .complete])).2 = true) := by unfold Ready; decide +kernel

theorem test_force :
    let t := after (.captureForce env 0 64) pod
    t.store.dir.map (fun e => (e.id, e.state, e.chain, e.length)) = [(1, .writing, [0], 64)] ∧
      ((t.cap 0).phase, (t.cap 0).remaining, (t.cap 0).flags.manual) = (.trend, 128, true) ∧
      outcomes (after (.captureForce env 0 65) pod) = [.badParam] ∧
      outcomes (after (.captureForce env 0 1) (forcing [])) = [.full] ∧
      ((after (.captureForce env 0 1) (forcing [entryOf 1 20 .complete])).store.dir.map (fun d => (d.id, d.chain))) =
        [(100, [0])] := by decide +kernel

/-! ### Sites and notes -/

/-- Sixteen closed sites. -/
def manySites : State :=
  base.setSites ⟨(List.range 16).map (fun k => { siteOf (k + 1) with state := .closed }), [], 1⟩

/-- SitesAreOpenedForgottenAndListed, each clause: ids 0, 1, 65535 and 65536; a site OPEN; a known id; a full registry; a site
with a record and one with none. -/
theorem test_sites_witness :
    (Ready (.siteOpen env 0 []) base ∧ base.parked = false ∧ (0 = 0 ∧ 65535 < 65536)) ∧
      (Ready (.siteOpen env 65535 []) surveyed ∧ surveyed.openSite.isSome) ∧
      (quiet.openSite = none ∧ (quiet.site 5).isSome) ∧
      (manySites.openSite = none ∧ manySites.site 17 = none ∧ 16 ≤ manySites.sites.registry.length) ∧
      (base.openSite = none ∧ base.site 1 = none ∧ base.sites.registry.length < 16) ∧
      (Ready (.siteForget env 6) quiet ∧ quiet.site 6 = none) ∧
      ((quiet.site 5).map (fun x => (x.state, x.records)) = some (.closed, 1)) ∧
      ((manySites.site 16).map (fun x => (x.state, x.records, x.pending, x.notes)) = some (.closed, 0, 0, 0) ∧
        ∀ j ∈ manySites.print.jobs, j.site ≠ 16) ∧ Ready (.siteList env) base := by unfold Ready; decide +kernel

/-- A name of 25 bytes is cut at 24, and a byte that is no printable character is replaced. -/
theorem test_site_open :
    let t := after (.siteOpen env 65535 (0x07 :: List.replicate 24 0x41)) base
    t.sites.registry.map (fun x => (x.id, x.name, x.state)) = [(65535, 0x3F :: List.replicate 23 0x41, .opened)] ∧
      outcomes (after (.siteOpen env 65536 []) base) = [.badParam] := by decide +kernel

theorem test_site_forget :
    outcomes (after (.siteForget env 5) quiet) = [.busy] ∧
      (after (.siteForget env 16) manySites).sites.registry.length = 15 := by decide +kernel

/-- `losing` with EPISODE records in the outbox, an ending interval or none, and windows that the current one counts. -/
def closing (records : Nat) (ending : Option Interval) (windows : Nat) : State :=
  let s := losing none
  (s.setEpisodes { s.episodes with outbox := List.replicate records recordOf }).setHarmonic
    { s.harmonic with ending := ending, current := some { intervalOf with windows := windows } }

/-- SiteCloseCutsTheSurvey: no site, and a survey with a capture in DURING. -/
theorem test_site_close_witness :
    (Ready (.siteClose env) base ∧ base.parked = false ∧ base.openSite = none) ∧
      (Ready (.siteClose env) capturing ∧ capturing.openSite = some (siteOf 5) ∧ capturing.harmonic.current = none ∧
        (∀ w ∈ capturing.harmonic.schedule, w.interval = .ending) ∧ (capturing.cap 0).taking = true ∧
        (capturing.cap 1).taking = false) := by unfold Ready; decide +kernel

/-- SiteCloseCutsTheSurvey: an open episode whose event is open and listed, with three records in the outbox and with four. -/
theorem test_site_close_episode_witness :
    let ok (s : State) (n : Nat) := Ready (.siteClose env) s ∧ s.openSite = some (siteOf 5) ∧
      s.episodes.current.map (fun ep => (ep.events.map (fun x => (x.1.chan, x.2)), ep.openChannels)) =
        some ([(2, true)], [2]) ∧
      (s.chan 2).event.map (fun v => v.chan) = some 2 ∧ (s.chan 2).listed = true ∧ s.episodes.outbox.length = n
    ok (closing 3 none 0) 3 ∧ ok (closing 4 none 0) 4 := by unfold Ready; decide +kernel

/-- SiteCloseCutsTheSurvey: a current interval with no window ended, with one, and beside an ending one. -/
theorem test_site_close_interval_witness :
    let ok (s : State) (e : Option Interval) (w : Nat) := Ready (.siteClose env) s ∧ s.openSite = some (siteOf 5) ∧
      s.harmonic.current.map (fun v => v.windows) = some w ∧ s.harmonic.ending = e ∧ s.harmonic.outbox = [] ∧
      (s.site intervalOf.site).isSome
    ok (closing 3 none 0) none 0 ∧ ok (closing 3 none 1) none 1 ∧
      ok (closing 0 (some intervalOf) 1) (some intervalOf) 1 := by unfold Ready; decide +kernel

theorem test_site_close_registry :
    RegistryOk capturing.sites.registry ∧ RegistryOk (closing 3 none 0).sites.registry := by
  refine ⟨?_, ?_⟩ <;> constructor <;> decide +kernel

theorem test_site_close_events : EventsOk (closing 3 none 0) := events_of _ (by decide +kernel)

theorem test_site_close :
    let t := after (.siteClose env) (closing 0 (some intervalOf) 1)
    t.openSite = none ∧ ((t.cap 0).phase, (t.cap 0).flags.cut) = (.closing, true) ∧
      t.episodes.outbox.map (fun r => (r.number, r.flags.cut, r.events.map (fun e => (e.chan, e.flags.cut)))) =
        [(7, true, [(2, true)])] ∧
      ((t.chan 2).state, (t.chan 2).event) = (.normal, none) ∧
      t.harmonic.outbox.map (fun r => (r.number, r.windows, r.flags.cut)) = [(1, 0, false), (2, 1, true)] ∧
      (after (.siteClose env) (closing 4 none 0)).episodes.lost = 1 ∧
      (after (.siteClose env) (closing 4 none 0)).harmonic.outbox = [] := by decide +kernel

/-- Entries 1 to 5 of site 5 and entry 6 of site 6; note 1 with links, note 2 with four. -/
def noted (links : List Link) (notes : Nat) : State :=
  (withDir (((List.range 5).map (fun k => { entryOf (k + 1) k .complete with pins := 1 })) ++
    [{ entryOf 6 6 .complete with site := 6 }, entryOf 7 7 .writing]) surveyed).setSites
    ⟨[siteOf 5, { siteOf 6 with state := .closed }], ⟨1, 5, 0, 3, [0x41], links⟩ ::
      (List.range notes).map (fun k => ⟨k + 2, 5, 0, 4, [], []⟩), 65⟩

/-- NotesAreAddedAndLinked, each clause: an unknown site; five links, and one twice; 64 and 63 notes; a record not COMPLETE, one
of another site; four links; three. -/
theorem test_note_witness :
    let s := noted [⟨1, .live⟩] 62
    let four := noted [⟨1, .live⟩, ⟨2, .live⟩, ⟨3, .live⟩, ⟨4, .live⟩] 0
    let three := noted [⟨1, .live⟩, ⟨2, .lost⟩, ⟨3, .live⟩] 0
    (Ready (.noteAdd env 9 0 [] []) s ∧ s.site 9 = none) ∧
      ((s.site 5).isSome ∧ 4 < [1, 2, 3, 4, 5].length ∧ ¬[1, 1].Nodup) ∧
      (64 ≤ (noted [] 63).sites.notes.length ∧ s.sites.notes.length = 63) ∧
      ([1, 7] = [1] ++ 7 :: [] ∧ (s.completeEntry 1).map (fun d => d.site) = some 5 ∧ s.completeEntry 7 = none ∧
        (s.completeEntry 6).map (fun d => d.site) = some 6 ∧ 6 ≠ 5) ∧
      ([1, 2, 3, 4].Nodup ∧ ∀ x ∈ [1, 2, 3, 4], (s.completeEntry x).map (fun d => d.site) = some 5) ∧
      (Ready (.noteLink env 99 1) s ∧ s.note 99 = none) ∧
      ((four.note 1).map (fun n => n.links.length) = some 4) ∧
      ((three.note 1).map (fun n => n.links.map (fun l => l.record)) = some [1, 2, 3] ∧
        (three.completeEntry 5).map (fun d => d.site) = some 5) := by unfold Ready; decide +kernel

theorem test_note_add :
    let t := after (.noteAdd env 5 6 [0x42] [1, 2]) (noted [⟨1, .live⟩] 1)
    (t.sites.notes.getLast?).map (fun n => (n.id, n.tags, n.text, n.links)) =
        some (65, 6, [0x42], [⟨1, .live⟩, ⟨2, .live⟩]) ∧
      (t.store.dir.map (fun d => d.pins)) = [2, 2, 1, 1, 1, 0, 0] ∧
      outcomes (after (.noteAdd env 5 0 [] [1, 6]) (noted [] 0)) = [.badParam] := by decide +kernel

theorem test_note_link :
    (((after (.noteLink env 1 5) (noted [⟨1, .live⟩] 0)).note 1).map (fun n => n.links) =
        some [⟨1, .live⟩, ⟨5, .live⟩]) ∧
      outcomes (after (.noteLink env 1 1) (noted [⟨1, .live⟩] 0)) = [.badParam] := by decide +kernel

/-- UnlinkingAndDeletingTakePinsAway: no such note, no such link, a LIVE link and a LOST one. -/
theorem test_unlink_witness :
    let s := noted [⟨1, .live⟩, ⟨2, .lost⟩] 0
    (Ready (.noteUnlink env 9 1) s ∧ s.note 9 = none) ∧ (Ready (.noteUnlink env 1 3) s ∧ (s.note 1).isSome) ∧
      [(⟨1, .live⟩ : Link), ⟨2, .lost⟩].find? (fun x => x.record == 1) = some ⟨1, .live⟩ ∧ (s.entry 1).isSome ∧
      [(⟨1, .live⟩ : Link), ⟨2, .lost⟩].find? (fun x => x.record == 2) = some ⟨2, .lost⟩ ∧
      Ready (.noteDelete env 1) s := by unfold Ready; decide +kernel

theorem test_unlink :
    let s := noted [⟨1, .live⟩, ⟨2, .lost⟩] 0
    ((after (.noteUnlink env 1 1) s).entry 1).map (fun d => d.pins) = some 0 ∧
      ((after (.noteUnlink env 1 2) s).entry 2).map (fun d => d.pins) = some 1 := by decide +kernel

theorem test_note_delete :
    let t := after (.noteDelete env 1) (noted [⟨1, .live⟩, ⟨2, .lost⟩] 0)
    t.sites.notes = [] ∧ (t.store.dir.map (fun d => d.pins)) = [0, 1, 1, 1, 1, 0, 0] := by decide +kernel

theorem test_note_read_witness :
    Ready (.noteRead env 1) (noted [⟨1, .live⟩] 0) ∧ ((noted [⟨1, .live⟩] 0).note 1).isSome ∧
      (noted [] 0).note 9 = none ∧ Ready (.noteList env none 0 1) (noted [] 17) := by unfold Ready; decide +kernel

theorem test_note_read :
    (after (.noteRead env 1) (noted [⟨1, .live⟩, ⟨2, .lost⟩] 0)).dport.inFlight.map (fun x => match x.1 with
      | .reply ⟨_, _, _, _, .note n kinds⟩ => (n.id, kinds)
      | _ => (0, [])) = some (1, [some .episode, none]) := by decide +kernel

/-- Eighteen notes, sixteen to a reply. -/
theorem test_note_list :
    (after (.noteList env (some 5) 4 1) (noted [] 17)).dport.inFlight.map (fun x => match x.1 with
      | .reply ⟨_, _, _, _, .notes ns more⟩ => (ns.length, more)
      | _ => (0, none)) = some (16, some 18) := by decide +kernel

/-! ### Report printing -/

/-- A job in a state, with a template. -/
def jobOf (st : JobState) (c : Cancel) : Job := ⟨3, 0, 5, st, c, 2⟩

/-- A print timing, and one of its periods. -/
def timingOf : TimingEntry := ⟨10, 3, 6, 8⟩

/-- A running period that has given some of its ticks. -/
def periodOf (strobed released stepped held : Bool) : Period := ⟨timingOf, 1, strobed, released, stepped, held⟩

/-- `surveyed` with the port taken, template 0 of two lines, and a print engine in a mode with jobs. -/
def printing (m : GenMode) (jobs : List Job) : State :=
  busyPort (surveyed.setPrint
    { PrintEngine.reset with
      templates := ⟨[.text [0x41], .rule], [], [], [.rule]⟩, timing := timingOf, jobs := jobs, nextJob := 4
      gen := ⟨m, .a, 0, 0, .paperFeed, none⟩ })

/-- A generator sending half A at a dot line, in a period. -/
def sending (line : Nat) (other : BandHalf) (c : ComposerState) (p : Period) : State :=
  let s := printing .band [jobOf .active .none, ⟨9, 3, 5, .queued, .none, 0⟩]
  s.setPrint { s.print with
    gen := ⟨.band, .a, line, 0, .paperFeed, some p⟩, halfA := .sending [0x41], halfB := other
    composer := { Composer.reset with state := c } }

/-- PrintCommandsActOnTheQueue, each clause. -/
theorem test_print_commands_witness :
    let idle := printing .idle []
    let active := printing .band [jobOf .active .none]
    (Ready (.printSubmit env 4 5) idle ∧ idle.parked = false ∧ 4 ≤ 4) ∧ idle.site 6 = none ∧
      ((idle.site 5).isSome ∧ idle.print.templates.get 1 = [] ∧ idle.print.templates.get 3 ≠ []) ∧
      8 ≤ (printing .idle (List.replicate 8 (jobOf .queued .none))).print.jobs.length ∧
      ((jobOf .active .none).state ≠ .queued ∧ idle.print.jobs = [] ∧ idle.print.gen.mode = .idle ∧
        (printing .held []).print.gen.mode = .held ∧ (printing .feed []).print.gen.mode = .feed) ∧
      (Ready (.printCancel penv 1) active ∧ ∀ j ∈ active.print.jobs, j.id ≠ 1) ∧
      (active.print.jobs.find? (fun x => x.id == 3) = some (jobOf .active .none) ∧ (jobOf .active .none).cancel = .none ∧
        active.print.gen.mode ≠ .idle) ∧
      ((jobOf .active .feeding).cancel ≠ .none ∧ (jobOf .queued .none).state = .queued ∧
        (jobOf .stalled .none).state = .stalled) ∧
      Ready (.printList penv) idle ∧
      (Ready (.paperFeed penv 64) idle ∧ (0 = 0 ∧ 64 < 65) ∧ idle.print.gen.mode ≠ .held ∧ idle.print.gen.mode ≠ .feed ∧
        (∀ j ∈ idle.print.jobs, j.state = .queued) ∧ penv.paper = .present) := by unfold Ready; decide +kernel

/-- PrintCommandsActOnTheQueue, a feed with the paper line ABSENT and a cancel with the generator IDLE. -/
theorem test_print_at_rest_witness :
    let idle := printing .idle []
    let resting := printing .idle [jobOf .active .none]
    (Ready (.paperFeed penvAbsent 1) idle ∧ penvAbsent.paper = .absent ∧ idle.print.jobs = []) ∧
      (Ready (.printCancel penv 3) resting ∧ resting.print.jobs = [jobOf .active .none] ∧
        resting.print.gen.mode = .idle ∧ resting.store.burst = none ∧ resting.store.holder ≠ .none ∧
        resting.dport.reply.length < 8) := by unfold Ready; decide +kernel

theorem test_submit :
    let t := after (.printSubmit env 3 5) (printing .idle [])
    t.print.jobs = [⟨4, 3, 5, .active, .none, 0⟩] ∧ t.print.nextJob = 5 ∧ t.print.composer.state = .composing ∧
      outcomes (after (.printSubmit env 1 5) (printing .idle [])) = [.badParam] := by decide +kernel

/-- The NOTICE of the end of a STALLED job no longer shows bit 8; a cancel with the generator IDLE feeds two rows at once. -/
theorem test_cancel :
    let stalled := (printing .band [jobOf .stalled .none]).setNotices
      { NoticeUnit.reset with requests := 0x100, masked := 0, offered := some 8 }
    (after (.printCancel penv 3) stalled).print.finished.map (fun f => (f.id, f.final, f.rows)) = [(3, .cancelled, 2)] ∧
      (after (.printCancel penv 3) stalled).dport.inFlight = some (.notice 9 0x200, .reply) ∧
      (after (.printCancel penv 3) (printing .band [jobOf .active .none])).print.jobs = [jobOf .active (.pending 7)] ∧
      (let t := after (.printCancel penv 3) (printing .idle [jobOf .active .none])
       (t.print.gen.mode, t.print.gen.feedLeft, outcomes t) = (.feed, 56, [.ok])) := by decide +kernel

/-- Two rows of feed are 56 feed lines, none while the paper line reads ABSENT; a job ACTIVE turns PAPER_FEED away. -/
theorem test_paper_feed :
    ((after (.paperFeed penv 2) (printing .idle [])).print.gen.mode, (after (.paperFeed penv 2) (printing .idle [])).print.gen.feedLeft) =
        (.feed, 56) ∧
      (let t := after (.paperFeed penvAbsent 2) (printing .idle [])
       (t.print.gen.mode, t.print.paper, outcomes t) = (.idle, .absent, [.ok])) ∧
      outcomes (after (.paperFeed penv 2) (printing .band [jobOf .active .none])) = [.busy] := by decide +kernel

theorem test_print_list :
    (after (.printList penvAbsent) (printing .idle [jobOf .queued .none])).dport.inFlight.map (fun x => match x.1 with
      | .reply ⟨_, _, _, _, .jobs q _ m p _ _ _ _ _⟩ => (q, m, p)
      | _ => ([], .held, .present)) = some ([jobOf .queued .none], .idle, .absent) := by decide +kernel

/-- TicksDriveTheStrobeAndTheMotor, each clause: the ticks 3, 6 and 8 of a band line in order, a held line, a feed line. -/
theorem test_ticks_witness :
    ((sending 0 .free .composing (periodOf false false false false)).print.gen.mode = .band ∧
        (periodOf false false false false).strobed = false ∧ timingOf.strobeStart ≤ timingOf.step) ∧
      (periodOf false false false true).headHold = true ∧
      ((periodOf true false false false).strobed = true ∧ (periodOf true false false false).released = false ∧
        timingOf.strobeEnd ≤ timingOf.step) ∧
      ((periodOf true true false false).stepped = false ∧ (periodOf true true false false).released = true) ∧
      (printing .feed []).print.gen.mode ≠ .band := by decide +kernel

theorem test_strobe :
    (after (.strobeStart .ok) (sending 0 .free .composing (periodOf false false false false))).print.strobe = true ∧
      (after (.strobeStart .hot) (sending 0 .free .composing (periodOf false false false false))).print.gen.period =
        some { periodOf false false false true with tick := 3 } ∧
      (after .headOk (sending 0 .free .composing (periodOf false false false true))).print.strobe = true := by decide +kernel

theorem test_strobe_end_and_step :
    (after .strobeEnd (sending 0 .free .composing (periodOf true false false false))).print.gen.period =
        some { periodOf true true false false with tick := 6 } ∧
      (after .motorStep (sending 0 .free .composing (periodOf true true false false))).print.gen.period =
        some { periodOf true true true false with tick := 8 } := by decide +kernel

/-- RowsLeaveTheBandInOrder, each clause: dot lines 26 and 27, the other half FULL, FREE with the composer at work and
FINISHED; a feed of two lines; a STALLED job; a TEXT line for half A, the first of two lines and the last. -/
theorem test_rows_witness :
    let done := periodOf true true true false
    let feed := (printing .feed []).setPrint
      { (printing .feed []).print with gen := ⟨.feed, .a, 0, 2, .paperFeed, some done⟩ }
    let compose := (printing .band [jobOf .active .none]).setPrint
      { (printing .band [jobOf .active .none]).print with composer := Composer.begin }
    ((sending 26 .free .composing done).print.gen.line < 27 ∧ done.stepped = true ∧ done.released = true ∧
        (sending 26 .free .composing done).store.holder ≠ .none ∧ (jobOf .active .none).cancel = .none) ∧
      ((sending 27 (.full [0x42]) .composing done).print.gen.line = 27 ∧ (jobOf .active .none).rows < 65535 ∧
        (sending 27 (.full [0x42]) .composing done).print.half .b = .full [0x42]) ∧
      ((BandHalf.free).fullRow = none ∧ (sending 27 .free .composing done).print.composer.state ≠ .finished ∧
        (sending 27 .free .finished done).print.composer.state = .finished) ∧
      (feed.print.gen.mode = .feed ∧ 1 < feed.print.gen.feedLeft ∧ feed.store.holder ≠ .none) ∧
      (jobOf .stalled .none).state = .stalled ∧
      (compose.print.composer.state = .composing ∧ compose.print.composer.read = .none ∧
        compose.print.composer.snapshot = [] ∧ compose.print.composer.harmonic = none ∧ compose.print.halfA = .free ∧
        compose.print.gen.mode ≠ .idle ∧ (compose.print.templates.get 0)[0]? = some (.text [0x41])) := by decide +kernel

theorem test_period_end :
    ((after (.printPeriodEnd .present) (sending 26 .free .composing (periodOf true true true false))).print.gen.line = 27) ∧
      (after (.printPeriodEnd .absent) (sending 26 .free .composing (periodOf true true true false))).print.jobs.map
        (fun j => j.state) = [.stalled, .queued] ∧
      (after (.printPeriodEnd .present) (sending 27 .free .composing (periodOf true true true false))).print.underruns = 1 := by
  decide +kernel

/-- A text row of one character is padded with spaces to 32. -/
theorem test_composer_row :
    let s := printing .band [jobOf .active .none]
    let t := after (.composerRow .present) (s.setPrint { s.print with composer := Composer.begin })
    t.print.halfA = .full (0x41 :: List.replicate 31 0x20) ∧ t.print.composer.line = 1 := by decide +kernel

theorem test_paper_present :
    let s := (sending 9 .free .composing (periodOf true true true false))
    let t := after .paperPresent (s.setPrint { s.print with
      jobs := [jobOf .stalled .none], gen := ⟨.band, .a, 9, 0, .paperFeed, none⟩ })
    (t.print.gen.line, t.print.jobs.map (fun j => j.state)) = (0, [.active]) := by decide +kernel

/-! ### Notices -/

/-- `pod` with sources requested, all unmasked, and a list in service. -/
def noticing (requests : BitVec 12) (service : List ServiceEntry) : State :=
  pod.setNotices { NoticeUnit.reset with requests := requests, masked := 0, service := service }

/-- OffersNameTheHighestGrantableSource, each clause: sources 5 and 8 requested; one offered; a full reply queue; polling; a mark
with a place free, and with nothing grantable. -/
theorem test_offer_witness :
    let s := noticing 0x120 []
    let w := (s.setNotices { s.notices with waiting := true }).setDport { s.dport with placeFreed := true }
    let w8 := (fullReply w).setDport { (fullReply w).dport with placeFreed := true }
    (s.notices.highest = some 5 ∧ (noticing 0 []).notices.highest = none ∧ s.notices.polling = false ∧
        s.notices.waiting = false ∧ s.notices.offered ≠ some 5 ∧ s.dport.reply.length < 8) ∧
      8 ≤ (fullReply s).dport.reply.length ∧ ({ s.notices with offered := some 5 } : NoticeUnit).offered = some 5 ∧
      (w.notices.waiting = true ∧ w.dport.placeFreed = true ∧ w.cmd.waiting = none ∧ w.print.deferred = [] ∧
        w.dport.reply.length < 8) ∧
      (8 ≤ w8.dport.reply.length ∧ w8.dport.placeFreed = true ∧ w8.notices.highest ≠ none ∧
        w8.notices.highest ≠ w8.notices.offered) ∧
      (let w0 := noticing 0 []
       let gone := (w0.setNotices { w0.notices with waiting := true, offered := some 5 }).setDport
         { w0.dport with placeFreed := true }
       gone.notices.waiting = true ∧ gone.notices.highest = none ∧ gone.dport.placeFreed = true ∧ gone.cmd.waiting = none ∧
        gone.print.deferred = []) ∧
      (Ready (.noticeMask env 0) s ∧ Ready (.noticeMode env none) s ∧ Ready (.noticePolling env true) s) ∧
      ((noticing 0x120 [⟨7, none⟩]).notices.service ≠ [] ∧ s.notices.service = []) := by unfold Ready; decide +kernel

/-- A source of lower rank than one in service is not grantable; in ROTATING the base goes first. -/
theorem test_highest :
    (noticing 0x120 [⟨7, none⟩]).notices.highest = some 5 ∧ (noticing 0x120 [⟨5, none⟩]).notices.highest = none ∧
      ({ (noticing 0x120 []).notices with mode := .rotating, base := 6 } : NoticeUnit).highest = some 8 := by decide +kernel

/-- A retry places the NOTICE; under the mark an offer ends with its source. -/
theorem test_offer_retry :
    let s := noticing 0x120 []
    let ended := (noticing 0x020 []).setNotices
      { (noticing 0x020 []).notices with waiting := true, offered := some 5 }
    let w := (s.setNotices { s.notices with waiting := true }).setDport { s.dport with placeFreed := true }
    ((after .offerRetry w).notices.offered, (after .offerRetry w).notices.waiting) = (some 5, false) ∧
      ((after (.noticeAck env) ended).notices.offered, (after (.noticeAck env) ended).notices.waiting) = (none, true) := by
  decide +kernel

theorem test_mask_mode_polling :
    (after (.noticeMask env 0x020) (noticing 0x120 [])).notices.offered = some 8 ∧
      outcomes (after (.noticeMode env (some .rotating)) (noticing 0 [⟨7, none⟩])) = [.busy] ∧
      (after (.noticePolling env true) (noticing 0x120 [])).notices.polling = true := by decide +kernel

/-- Slot 0 with sub-notices 0 and 3, and source 7 requested. -/
def cascading : State := (noticing 0x080 []).setSlot 0 { podAt 0 with pendingSet := 0x09 }

/-- NoticesAreAcknowledgedAndEnded, each clause: nothing grantable; an edge source; source 7 with code 3 the highest; ends named
11 and 12, of a source in service and of one that is not. -/
theorem test_ack_witness :
    (Ready (.noticeAck env) (noticing 0 []) ∧ Ready (.noticePoll env) (noticing 0 []) ∧
        (noticing 0 []).notices.highest = none) ∧
      ((noticing 0x120 []).notices.highest = some 5 ∧ (5 : Fin 12) ≠ 7) ∧
      (cascading.notices.highest = some 7 ∧ (cascading.slot 0).pendingSet.getLsbD 3 = true ∧
        (∀ j : Slot, j < 0 → (cascading.slot j).pendingSet = 0) ∧
        ∀ m < 8, 3 < m → (cascading.slot 0).pendingSet.getLsbD m = false) ∧
      (Ready (.noticeEnd env (some 12)) base ∧ 12 ≤ 12 ∧ (11 < 12 ∧ ∀ x ∈ base.notices.service, x.source.val ≠ 11) ∧
        base.notices.service = []) ∧
      (let s := noticing 0 [⟨2, none⟩, ⟨7, some (0, 9, 3)⟩]
       (s.notices.service.map (fun y => y.source)).Nodup ∧ s.notices.service.head? = some ⟨2, none⟩ ∧
        (⟨7, some (0, 9, 3)⟩ : ServiceEntry) ∈ s.notices.service ∧ s.isActive 0 = true ∧ (s.slot 0).serial = 9) := by
  unfold Ready; decide +kernel

/-- An edge source leaves the request set; source 7 stays, and its highest code is acknowledged to the pod. -/
theorem test_ack :
    ((after (.noticeAck env) (noticing 0x120 [])).notices.requests,
        (after (.noticeAck env) (noticing 0x120 [])).notices.service) = (0x100, [⟨5, none⟩]) ∧
      (after (.noticePoll env) cascading).session.upInFlight = some (.podAck 0 3) ∧
      (after (.noticePoll env) cascading).notices.requests = 0x080 := by decide +kernel

theorem test_end :
    (after (.noticeEnd env (some 7)) (noticing 0 [⟨2, none⟩, ⟨7, some (0, 9, 3)⟩])).session.upInFlight = some (.podEnd 0 3) ∧
      (after (.noticeEnd env none) (noticing 0 [⟨2, none⟩, ⟨7, some (0, 9, 3)⟩])).notices.service = [⟨7, some (0, 9, 3)⟩] := by
  decide +kernel

/-! ### The trunk ports and the command unit -/

/-- A port with a frame in flight. -/
def flying (d : DPort) : State := base.setDport { d with inFlight := some (.reply someReply, .reply) }

/-- A port with a frame for every queue. -/
def loaded : DPort :=
  { DPort.reset with
    passthrough := [oneSet 0], reply := [.reply someReply], periodic := [⟨4, zeros 512⟩, ⟨5, zeros 513⟩]
    record := [⟨1, 0, true, []⟩] }

/-- PortsSendInTheirOrder: the queues in their order and in HOLD, a send buffer, a port with nothing, records of 512 and 513
bytes; the upstream port. -/
theorem test_line_witness :
    ((flying loaded).dport.inFlight.isSome ∧ (flying loaded).dport.pendingHold = none ∧ loaded.hold = false ∧
        loaded.passthrough = [oneSet 0]) ∧
      (loaded.reply = [.reply someReply] ∧ ({ loaded with hold := true } : DPort).hold = true) ∧
      (zeros 512).length ≤ 512 ∧ 512 < (zeros 513).length ∧
      ({ loaded with passthrough := [], reply := [], sendBuffer := some (⟨5, zeros 513⟩, 512) } : DPort).sendBuffer =
        some (⟨5, zeros 513⟩, 512) ∧
      (base.dport.inFlight = none ∧ base.session.upInFlight = none) := by decide +kernel

/-- The second frame of a 513-byte record holds its last byte. -/
theorem test_line :
    (after .dFrameEnd (flying loaded)).dport.inFlight = some (.sample (oneSet 0), .passthrough) ∧
      (after .dFrameEnd (flying { loaded with hold := true })).dport.inFlight = some (.reply someReply, .reply) ∧
      (after .dFrameEnd (flying { DPort.reset with sendBuffer := some (⟨5, zeros 513⟩, 512) })).dport.inFlight =
        some (.record ⟨5, 512, true, [0]⟩, .periodic) := by decide +kernel

theorem test_up_line :
    (after .uFrameEnd (base.setSession
      { SessionUnit.reset with upInFlight := some (.podAck 0 1), up := [.podAck 0 2] })).session.upInFlight =
        some (.podAck 0 2) := by decide +kernel

/-- A deferred reply held by the print engine. -/
def deferring (s : State) : State := s.setPrint { s.print with deferred := [someReply] }

/-- RepliesWaitForAPlace, each clause: queues of 0 and of 8; a waiting reply, and one to RECORD_READ; a deferred reply; HOLD
with the line at rest and with a frame in flight; its reply as that frame ends; RELEASE. -/
theorem test_reply_witness :
    let readout := (busyPort base).setCmd ⟨[], none, some (7, 22), some ⟨7, 22, .ok, false, .readout 600 0⟩, 0⟩
    (base.dport.reply.length < 8 ∧ 8 ≤ (fullReply base).dport.reply.length) ∧ (fullReply base).dport.inFlight.isSome ∧
      (waitingReply base).cmd.waiting = some someReply ∧ someReply.body = .empty ∧
      (readout.cmd.waiting.map (fun r => r.body) = some (.readout 600 0) ∧ readout.store.holder ≠ .none) ∧
      ((deferring base).print.deferred = [someReply] ∧ (waitingReply (deferring base)).cmd.waiting ≠ none) ∧
      (Ready (.hold env) base ∧ base.dport.inFlight = none ∧ (fullReply base).dport.inFlight ≠ none) ∧
      (({ loaded with hold := true, pendingHold := some someReply } : DPort).pendingHold = some someReply) ∧
      (Ready (.release env) (flying loaded) ∧ (flying loaded).dport.inFlight ≠ none) ∧
      ((⟨[.resume env], none, some (1, 3), none, 0⟩ : CommandUnit).next = none ∧
        (⟨[.resume env], some (.hold env), none, none, 0⟩ : CommandUnit).next ≠ none) := by unfold Ready; decide +kernel

/-- RELEASE with nothing in flight: a passthrough frame, a reply, a send buffer, a periodic record, a record frame, nothing. -/
theorem test_release_witness :
    let s (d : DPort) := base.setDport { d with hold := true }
    Ready (.release env) (s loaded) ∧ (s loaded).dport.inFlight = none ∧ loaded.passthrough = [oneSet 0] ∧
      ({ loaded with passthrough := [] } : DPort).reply = [.reply someReply] ∧
      ({ loaded with passthrough := [], reply := [], sendBuffer := some (⟨5, zeros 513⟩, 512) } : DPort).sendBuffer.isSome ∧
      ({ loaded with passthrough := [], reply := [] } : DPort).periodic.map (fun c => c.id) = [4, 5] ∧
      ({ loaded with passthrough := [], reply := [], periodic := [] } : DPort).record = [⟨1, 0, true, []⟩] ∧
      (s DPort.reset).dport.inFlight = none := by unfold Ready; decide +kernel

theorem test_reply_place :
    after .replyPlace (waitingReply (fullReply base)) = waitingReply (fullReply base) ∧
      (after .replyPlace (waitingReply base)).cmd = ⟨[], none, none, none, 0⟩ ∧
      (after .deferredReplyPlace (deferring base)).print.deferred = [] := by decide +kernel

/-- HOLD with a frame in flight is answered as that frame ends, behind the replies queued. -/
theorem test_hold :
    let s := after (.hold env) (flying loaded)
    (s.dport.hold, s.dport.pendingHold, s.cmd.running) = (true, some ⟨7, 6, .ok, false, .empty⟩, some (7, 6)) ∧
      (after .dFrameEnd s).dport.reply = [.reply ⟨7, 6, .ok, false, .empty⟩] ∧ (after .dFrameEnd s).cmd.running = none := by
  decide +kernel

theorem test_release :
    (after (.release env) (base.setDport { loaded with hold := true, reply := [] })).dport.inFlight =
      some (.sample (oneSet 0), .passthrough) ∧
    (after (.release env) (base.setDport { DPort.reset with hold := true, periodic := [⟨5, zeros 513⟩] })).dport.sendBuffer =
      some (⟨5, zeros 513⟩, 512) := by decide +kernel

/-- CommandsArriveAndAreForwarded, each clause: an idle unit, and queues of 3 and 4; codes 0 and 38; targets 3, 4, 254; bodies of 64 and 65 bytes;
a full upstream queue. -/
theorem test_arrival_witness :
    let q (n : Nat) := base.setCmd ⟨List.replicate n (.resume env), none, none, none, 0⟩
    (isCommand (.resume env) = true ∧ (q 3).cmd.queue.length < 4 ∧ 4 ≤ (q 4).cmd.queue.length ∧ (q 3).cmd.queue ≠ [] ∧
        (waitingReply base).cmd.running ≠ none) ∧
      base.cmd = ⟨[], none, none, none, 0⟩ ∧
      ((0#8).toNat = 0 ∧ 37 < (38#8).toNat ∧ Ready (.unknownCommand 1 38) base) ∧
      (Ready (.forwardedCommand 1 254 1 []) base ∧ 4 ≤ (254#8).toNat ∧ (254#8).toNat ≠ 255) ∧
      ((0#8).toNat = (0 : Slot).val ∧ pod.parked = false ∧ Ready (.forwardedCommand 1 0 1 (zeros 65)) pod ∧
        64 < (zeros 65).length ∧ (zeros 64).length ≤ 64 ∧ (pod.slot 0).phase = .active ∧ (pod.slot 1).phase ≠ .active ∧
        pod.session.up.length < 8) ∧
      8 ≤ (pod.setSession { pod.session with up := List.replicate 8 (.podAck 0 1) }).session.up.length := by
  unfold Ready; decide +kernel

/-- A frame that finds four is dropped; one that arrives as the running command completes finds the place its head has left. -/
theorem test_command_overflow :
    let full := base.setCmd ⟨List.replicate 4 (.resume env), none, some (1, 3), some someReply, 0⟩
    let t := after (.command (.resume env)) full
    let u := after (.command (.resume env)) (after .replyPlace full)
    (t.cmd.queue.length, t.cmd.overflows, hasSource t.notices.requests 11) = (4, 1, true) ∧
      (u.cmd.queue.length, u.cmd.overflows, u.cmd.next) = (4, 0, some (.resume env)) ∧
      (after (.command (.resume env)) base).cmd = ⟨[], some (.resume env), none, none, 0⟩ := by decide +kernel

theorem test_forwarded :
    (after (.forwardedCommand 1 0 200 [5]) pod).session.upInFlight = some (.podCommand 0 1 [5]) ∧
      outcomes (after (.forwardedCommand 1 1 200 [5]) pod) = [.noPod] ∧
      outcomes (after (.unknownCommand 1 38) base) = [.unknown] := by decide +kernel

/-! ### Tables -/

/-- The tests of RunTaken, as one proposition that can be decided. -/
theorem taken_of (c : Instr) (h : LoadHead) (size given : Nat) (s : State)
    (w : (s.cmd = ⟨[], none, none, none, 0⟩ ∧ h.lengthOk = true ∧ h.tableKnown = true ∧ s.parked = false) ∧
      1 ≤ h.count ∧ h.first + h.count ≤ size ∧ given = h.count) : RunTaken c h size given s := by
  refine ⟨?_, w.1.2.1, w.1.2.2.1, w.1.2.2.2, w.2⟩
  unfold Ready; rw [w.1.1]; exact ⟨rfl, rfl, Or.inl ⟨rfl, rfl⟩⟩

/-- The common tests: an unknown table, a count of 0, a run past the end, and a run not carried whole. -/
theorem test_load_witness :
    loadShape (.tableLoadBin ⟨7, true, false, 0, 1⟩ [none]) = some (⟨7, true, false, 0, 1⟩, 24, 1) ∧
      Ready (.tableLoadBin ⟨7, true, false, 0, 1⟩ [none]) base ∧ (head 0 0).count = 0 ∧
      24 < (head 20 5).first + (head 20 5).count ∧ [none, (none : Option Nat)].length ≠ (head 0 1).count := by
  unfold Ready; decide +kernel

theorem test_runs_taken_survey_to_capture :
    RunTaken (.tableLoadSurvey (head 0 1) [⟨60, 2047, false⟩]) (head 0 1) 1 1 base ∧
      RunTaken (.tableLoadReference (head 2 2) [some 15, none]) (head 2 2) 4 2 base ∧
      RunTaken (.tableLoadThreshold (head 15 1) [worked]) (head 15 1) 16 1 base ∧
      RunTaken (.tableLoadCapture (head 0 4) (List.replicate 4 ⟨true, 8, 16⟩)) (head 0 4) 4 4 base :=
  ⟨taken_of _ _ _ _ _ (by decide +kernel), taken_of _ _ _ _ _ (by decide +kernel), taken_of _ _ _ _ _ (by decide +kernel),
    taken_of _ _ _ _ _ (by decide +kernel)⟩

theorem test_runs_taken_bin_to_timing :
    RunTaken (.tableLoadBin (head 5 1) [some 9]) (head 5 1) 24 1 base ∧
      RunTaken (.tableLoadHarmonic (head 15 2) [⟨0, true⟩, ⟨255, false⟩]) (head 15 2) 17 2 base ∧
      RunTaken (.tableLoadTemplate (head 3 1) [[.rule]]) (head 3 1) 4 1 (printing .idle []) ∧
      RunTaken (.tableLoadPrintTiming (head 0 1) [timingOf]) (head 0 1) 1 1 (busyPort base) :=
  ⟨taken_of _ _ _ _ _ (by decide +kernel), taken_of _ _ _ _ _ (by decide +kernel), taken_of _ _ _ _ _ (by decide +kernel),
    taken_of _ _ _ _ _ (by decide +kernel)⟩

/-- The clauses of the SURVEY to CAPTURE loads: H of 2047 and 2048, f_nom 50 and 60 with a slot used; a channel twice in a
run and one held outside it; a channel of an ACTIVE slot and of one that is not; post of 16 and 17, and a slot with a
capture under way. -/
theorem test_loads_witness :
    (2047 < 2048 ∧ (60 : Nat) ≠ pod.survey.fNom ∧ (pod.slot 0).phase ≠ .empty ∧ (∀ i, (base.slot i).phase = .empty) ∧
        base.openSite = none) ∧
      ([some 3, (some 3 : Option Nat)][1]? = some (some 3) ∧
        (pod.setTracker { Tracker.reset with table := ⟨some 3, none, none, none⟩ }).tracker.table.get 0 = some 3) ∧
      (pod.isActive (3 : Chan).slot = true ∧ pod.isActive (4 : Chan).slot = false ∧
        [worked][(4 : Chan).val - 4]? = some worked) ∧
      (16 ≤ 16 ∧ ¬(17 ≤ 16) ∧ (capturing.cap 0).phase ≠ .idle ∧ (∀ i : Slot, (base.cap i).phase = .idle) ∧
        (base.cap 0).entry.pre = 2) := by decide +kernel

/-- R40's limits: Ts + Hy of 1000 passes, 1001 does not; Ti one below Ts passes with Hy 1. -/
theorem test_threshold_checks :
    thresholdOk ⟨true, 1, 980, 100, 1100, 20⟩ = true ∧ thresholdOk ⟨true, 1, 981, 100, 1100, 20⟩ = false ∧
      thresholdOk ⟨true, 0, 900, 100, 1100, 20⟩ = false ∧ thresholdOk ⟨false, 0, 900, 899, 1100, 1⟩ = true ∧
      thresholdOk ⟨true, 32768, 900, 100, 1100, 20⟩ = false := by decide +kernel

/-- The reply of a load. -/
def loadReply (c : Instr) (s : State) : Option (OutcomeCode × ReplyBody) :=
  (after c s).dport.inFlight.bind (fun x => match x.1 with | .reply r => some (r.outcome, r.body) | _ => none)

theorem test_loads_refused :
    loadReply (.tableLoadSurvey (head 0 1) [⟨60, 2048, false⟩]) base = some (.badTable, .failing 0) ∧
      loadReply (.tableLoadReference (head 1 2) [some 3, some 3]) base = some (.badTable, .failing 2) ∧
      loadReply (.tableLoadThreshold (head 14 2) [worked, { worked with hy := 101 }]) base = some (.badTable, .failing 15) ∧
      loadReply (.tableLoadCapture (head 0 1) [⟨true, 3, 4⟩]) base = some (.badTable, .failing 0) := by decide +kernel

theorem test_loads_taken :
    (after (.tableLoadSurvey (head 0 1) [⟨60, 2047, false⟩]) base).survey = ⟨60, 2047, false⟩ ∧
      (after (.tableLoadReference (head 1 1) [some 2]) pod).tracker.table.get 1 = some 2 ∧
      (((after (.tableLoadThreshold (head 3 2) [worked, worked]) pod).chan 3).staged,
        ((after (.tableLoadThreshold (head 3 2) [worked, worked]) pod).chan 4).inForce) = (some worked, worked) ∧
      ((after (.tableLoadCapture (head 1 1) [⟨true, 8, 16⟩]) base).cap 1).entry = ⟨true, 8, 16⟩ := by decide +kernel

/-- The clauses of the BIN to PRINT_TIMING loads: place 0 not order 1; orders 63 and 64; a site OPEN and none; M of 0, 1, 255
and 256; 32 and 33 lines; a job that names a template of the run; ticks 1 and 4095; L_t of 1 before and after, with a job under way, a QUEUED
one and none, a cancel pending, and room for its reply or none. -/
theorem test_bins_witness :
    (63 ≤ 63 ∧ ¬(64 ≤ 63) ∧ base.openSite = none ∧ surveyed.openSite.isSome) ∧
      ((base.harmonic.staged.getD (base.harmonic.bins, base.harmonic.params)).2.watch.length = 16 ∧
        [(⟨255, true⟩ : HarmonicEntry)].getLast? = some ⟨255, true⟩ ∧ 255 < 256) ∧
      ((List.replicate 32 TemplateLine.rule).length ≤ 32 ∧ ¬((List.replicate 33 TemplateLine.rule).length ≤ 32) ∧
        (∃ j ∈ (printing .idle [jobOf .queued .none]).print.jobs, 0 ≤ j.template.val ∧ j.template.val < 0 + 1)) ∧
      (1 < timingOf.strobeStart ∧ timingOf.strobeStart < timingOf.strobeEnd ∧ timingOf.strobeEnd ≤ timingOf.lt ∧
        1 < timingOf.step ∧ timingOf.step ≤ timingOf.lt ∧ base.print.timing.lt = 1 ∧ (busyPort base).store.holder ≠ .none) ∧
      ((printing .band [jobOf .active .none]).print.timing.lt ≠ 1 ∧ (jobOf .active .none).state ≠ .queued ∧
        (jobOf .active .none).cancel = .none ∧ (jobOf .queued .none).state = .queued ∧
        (∀ j ∈ (printing .feed []).print.jobs.take 1, j.state = .queued) ∧
        (jobOf .active (.pending 7)).cancel = .pending 7 ∧ (printing .band []).dport.reply.length < 8 ∧
        8 ≤ (fullReply (printing .band [])).dport.reply.length) := by decide +kernel

/-- Place 4 as order 3 again breaks the ascending order; a fifth template is past the end. -/
theorem test_bins_refused :
    loadReply (.tableLoadBin (head 4 1) [some 5]) base = some (.badTable, .failing 4) ∧
      loadReply (.tableLoadBin (head 0 1) [some 2]) base = some (.badTable, .failing 0) ∧
      loadReply (.tableLoadHarmonic (head 16 1) [⟨0, true⟩]) base = some (.badTable, .failing 16) ∧
      loadReply (.tableLoadTemplate (head 4 1) [[]]) base = some (.badParam, .empty) ∧
      loadReply (.tableLoadPrintTiming (head 0 1) [⟨10, 6, 6, 8⟩]) base = some (.badTable, .failing 0) := by decide +kernel

theorem test_bins_taken :
    binList (after (.tableLoadBin (head 5 1) [some 9]) base).harmonic.bins = [1, 2, 3, 5, 7, 9] ∧
      (after (.tableLoadHarmonic (head 16 1) [⟨3, true⟩]) surveyed).harmonic.staged.map (fun p => p.2.m) = some 3 ∧
      (after (.tableLoadTemplate (head 1 1) [[.text [0x07]]]) base).print.templates.get 1 = [.text [0x3F]] ∧
      (after (.tableLoadPrintTiming (head 0 1) [timingOf]) base).print.gen.mode = .idle ∧
      (let withdraw := Instr.tableLoadPrintTiming (head 0 1) [⟨1, 1, 1, 1⟩]
       (after withdraw (printing .feed [])).print.gen.mode = .held ∧
        (after withdraw (printing .band [jobOf .active (.pending 9)])).dport.inFlight =
          some (.reply ⟨9, 29, .ok, false, .cancelled 3 2⟩, .reply) ∧
        (after withdraw (printing .band [jobOf .active (.pending 9)])).print.finished.map (fun f => f.final) = [.failed]) := by
  decide +kernel

/-! ### Readings and SOFT_RESET -/

theorem test_readings_witness :
    (Ready (.tableRead env none 0 1) base ∧ (tableEntries .bin base).length = 24 ∧ 24 < 0 + 25 ∧ 23 + 1 ≤ 24) ∧
      (Ready (.status penv none) base ∧ Ready (.status penv (some .part)) base) ∧ Ready (.clockSet env 5) base := by
  unfold Ready; decide +kernel

theorem test_readings :
    outcomes (after (.tableRead env (some .capture) 3 2) base) = [.badParam] ∧
      (after (.clockSet env 0xFFFFFFFF) base).clock = ⟨4294967295, true, 0⟩ ∧
      (after .surveyClockTick (base.setClock ⟨4294967295, true, 0⟩)).clock.seconds = 0 ∧
      (loadReply (.status penv (some .sites)) surveyed) = some (.ok, .status (.sites (some 5) 1 0 1)) ∧
      loadReply (.status penvAbsent (some .print)) base = some (.ok, .status (.print .held .absent .ok 0 0)) ∧
      (captureStatus ((heldRun 71 0).cap 0) 0).heldRun = 71 := by decide +kernel

theorem test_soft_reset_witness :
    Ready (.softReset env) capturing ∧ capturing.parked = false ∧ capturing.print.finished.length ≤ 8 := by
  unfold Ready; decide +kernel

/-- A WRITING entry's page returns to the free-page list; the pod gets a DETACH; the tables stay. -/
theorem test_soft_reset :
    let t := after (.softReset env) capturing
    (t.store.dir, t.store.free.getLast?, t.store.nextId) = ([], some 3, 100) ∧
      t.session.upInFlight = some (.detach 0 9) ∧ (t.slot 0).phase = .empty ∧ (t.cap 0).phase = .idle ∧
      t.sites.registry.map (fun x => x.state) = [.opened] := by decide +kernel

end Sys2Proof.Tests
end

section
/-! SUPPORT. What the cycle tracker holds after each of its operations (R22 to R34), and that it depends on nothing but the
tracker and the instant counter. -/

namespace Sys2Proof.Machine

open Sys2Proof

/-! ### Boundaries -/

/-- L_prev is 128 in FREE, and where fewer than two boundaries are listed (R29). -/
theorem cycleLength_of_free_or_short (list : List Boundary) (n : Nat) (free : Bool)
    (h : free = true ∨ list.length < 2) : cycleLength list n free = 128 := by
  unfold cycleLength
  split
  · rfl
  · next hf =>
    have hl : list.reverse.length < 2 := by simpa using h.resolve_left hf
    split
    · next heq =>
      rw [heq] at hl
      simp only [List.length_cons] at hl
      omega
    · rfl

/-- L_prev outside FREE, for the two newest boundaries listed (R29). -/
theorem cycleLength_of_two (pre : List Boundary) (p m : Boundary) (n : Nat) :
    cycleLength (pre ++ [p, m]) n false =
      if p.direction = .rising ∧ m.direction = .falling then n - p.instant else 128 := by
  simp [cycleLength, and_comm]

/-- The list holds 16 boundaries, and drops its oldest for one more (R23). -/
theorem appendBoundary_list (list : List Boundary) (b : Boundary) :
    (appendBoundary list b).1 = (list ++ [b]).drop (if list.length < 16 then 0 else 1) := by
  unfold appendBoundary
  split
  · rfl
  · next h =>
    cases list with
    | nil => exact absurd (by decide) h
    | cons x rest => rfl

/-- The entry of a RISING boundary carries the L_prev that the tracker then holds, with its phase step (R23, R29). -/
theorem rising_cycle (t : Tracker) (n : Nat) (after : TrackerMode) :
    (t.entry n .rising after).cycle =
        some (cycleLength t.list n (after == .free), 8388608 / cycleLength t.list n (after == .free)) ∧
      (t.make (t.entry n .rising after) after).lPrev = cycleLength t.list n (after == .free) := ⟨rfl, rfl⟩

/-! ### FREE -/

/-- The tracker without what making and counting out boundaries changes: what the rules of FREE leave standing (R25). -/
def Tracker.standing (t : Tracker) : Tracker :=
  { t with
    decision := none, position := 0, lastDirection := .rising, newest := none, nextNumber := 0, list := [], lPrev := 0 }

theorem decideFree_standing (s : State) (n : Nat) (h : s.tracker.mode = .free) :
    (decideFree s n).tracker.standing = s.tracker.standing := by
  unfold decideFree
  dsimp only
  split
  · rw [makeBoundary_tracker, Tracker.make, ← h]
    rfl
  · rfl

/-- An instant decided in FREE is the decision point (R22). -/
theorem decideFree_undecided (s : State) (n : Nat) : (decideFree s n).tracker.undecided = n + 1 := by
  unfold decideFree
  dsimp only
  split
  · rw [makeBoundary_tracker]
    rfl
  · rfl

/-- A field that FREE leaves standing. -/
theorem Tracker.field_of_standing {α : Type} (f : Tracker → α) {t u : Tracker} (h : t.standing = u.standing)
    (hf : ∀ x, f x.standing = f x := by exact fun _ => rfl) : f t = f u := by
  rw [← hf t, h, hf u]

theorem decideRange_standing (count n : Nat) (s : State) (h : s.tracker.mode = .free) :
    (decideRange count n s).tracker.standing = s.tracker.standing := by
  induction count generalizing n s with
  | zero => rfl
  | succ k ih =>
    have hs := decideFree_standing s n h
    exact (ih (n + 1) (decideFree s n) ((Tracker.field_of_standing Tracker.mode hs).trans h)).trans hs

theorem decideRange_undecided (count n : Nat) (s : State) (h : s.tracker.undecided = n) :
    (decideRange count n s).tracker.undecided = n + count := by
  induction count generalizing n s with
  | zero => exact h
  | succ k ih =>
    rw [decideRange, ih (n + 1) (decideFree s n) (decideFree_undecided s n)]
    omega

/-- Entering FREE ends the runs of SEEKING and LOCKED and leaves the rest standing (R25). -/
theorem enterFree_standing (s : State) :
    (enterFree s).tracker.standing =
      ({ s.tracker with mode := .free, crossingCloses := 0, forcedRun := 0 } : Tracker).standing :=
  decideRange_standing _ _ (s.setTracker { s.tracker with mode := .free, crossingCloses := 0, forcedRun := 0 }) rfl

/-- Every passed instant is decided as the tracker enters FREE (R22). -/
theorem enterFree_undecided (s : State) : s.instant ≤ (enterFree s).tracker.undecided := by
  rw [enterFree, catchUp, decideRange_undecided _ _ _ rfl]
  simp only [State.setTracker_instant]
  omega

/-! ### What the tracker's operations depend on -/

theorem makeBoundary_congr {s u : State} (h : u.tracker = s.tracker) (n : Nat) (d : Direction) (after : TrackerMode)
    (length : Nat) :
    (makeBoundary n d after length u).1.tracker = (makeBoundary n d after length s).1.tracker ∧
      (makeBoundary n d after length u).2 = (makeBoundary n d after length s).2 := by
  rw [makeBoundary_tracker, makeBoundary_tracker, h]
  exact ⟨rfl, by rw [makeBoundary, makeBoundary, h]⟩

theorem decideFree_congr {s u : State} (h : u.tracker = s.tracker) (n : Nat) :
    (decideFree u n).tracker = (decideFree s n).tracker := by
  unfold decideFree
  dsimp only
  rw [h]
  split
  · exact (makeBoundary_congr h _ _ _ _).1
  · rfl

theorem decideRange_congr {s u : State} (h : u.tracker = s.tracker) (count n : Nat) :
    (decideRange count n u).tracker = (decideRange count n s).tracker := by
  induction count generalizing n s u with
  | zero => exact h
  | succ k ih => exact ih (decideFree_congr h n) (n + 1)

theorem enterFree_congr {s u : State} (h : u.tracker = s.tracker) (hi : u.instant = s.instant) :
    (enterFree u).tracker = (enterFree s).tracker := by
  simp only [enterFree, catchUp, h, State.setTracker_instant, State.setTracker_tracker, hi]
  exact decideRange_congr (by simp only [State.setTracker_tracker]) _ _

/-! ### The reference -/

@[simp] theorem judgeOffer_service (s : State) : (judgeOffer s).notices.service = s.notices.service := by
  unfold judgeOffer
  dsimp only
  repeat' split
  all_goals rfl

/-- An event adds its source to the requests, and puts none in service (R169). -/
theorem raise_raised (k : Fin 12) (s : State) : Raised k s (raise k s) := by
  simp [Raised, raise]

/-- The reference change record of a state's decision point and handover count (R34). -/
theorem recordChange_tracker (reason : ChangeReason) (previous next : Option Chan) (s : State) :
    (recordChange reason previous next s).tracker =
      { s.tracker with change := some ⟨reason, previous, next, s.tracker.decision, s.tracker.handoverCount⟩ } :=
  (does_raise 5 _).keeps.tracker

/-- A reference change raises REFERENCE_CHANGE (R34). -/
theorem recordChange_raised (reason : ChangeReason) (previous next : Option Chan) (s : State) :
    Raised 5 s (recordChange reason previous next s) := raise_raised 5 _

/-- A raised source is in the request set. -/
theorem hasSource_of_raised {k : Fin 12} {s t : State} (h : Raised k s t) : hasSource t.notices.requests k = true := by
  rw [h.1]
  exact hasSource_addSource _ _

/-- Whether a channel qualifies depends on the slots, the channels and the instant counter alone (R31). -/
theorem qualifies_of_keeps {ps : List Part} {s t : State} (h : Keeps ps s t) (hs : .slots ∉ ps := by decide)
    (hd : .detector ∉ ps := by decide) (hi : .instant ∉ ps := by decide) : qualifies t = qualifies s := by
  have slots : t.session.slots = s.session.slots := h .slots hs
  have detector : t.detector = s.detector := h .detector hd
  have instant : t.instant = s.instant := h .instant hi
  funext c
  simp only [qualifies, State.isActive, State.slot, State.chan, laneNear, slots, detector, instant]

/-- The candidates are those of the REFERENCE table (R30). -/
theorem candidates_of_keeps {ps : List Part} {s t : State} (h : Keeps ps s t) (hr : .reference ∉ ps := by decide) :
    t.tracker.candidates = s.tracker.candidates := by
  have table : t.tracker.table = s.tracker.table := h .reference hr
  rw [Tracker.candidates, Tracker.candidates, table]

/-- The first candidate that qualifies is the same where the table, the slots, the channels and the counter are. -/
theorem chooseReference_of_keeps {ps : List Part} {s t : State} (h : Keeps ps s t) (hs : .slots ∉ ps := by decide)
    (hd : .detector ∉ ps := by decide) (hi : .instant ∉ ps := by decide) (hr : .reference ∉ ps := by decide) :
    chooseReference t = chooseReference s := by
  rw [chooseReference, chooseReference, candidates_of_keeps h hr, qualifies_of_keeps h hs hd hi]

/-- The part with its tracker in FREE, as a handover first brings it (R33). -/
def freed (s : State) : State := if s.tracker.mode = .free then s else enterFree s

theorem does_freed (s : State) : Does boundaryParts s (freed s) := by
  unfold freed
  split
  · exact Does.refl _ s
  · exact does_enterFree s

theorem freed_mode (s : State) : (freed s).tracker.mode = .free := by
  unfold freed
  split
  · assumption
  · exact Tracker.field_of_standing Tracker.mode (enterFree_standing s)

theorem freed_handoverCount (s : State) : (freed s).tracker.handoverCount = s.tracker.handoverCount := by
  unfold freed
  split
  · rfl
  · exact (Tracker.field_of_standing Tracker.handoverCount (enterFree_standing s)).trans rfl

theorem freed_undecided (s : State) (h : s.tracker.mode ≠ .free) : s.instant ≤ (freed s).tracker.undecided := by
  rw [freed, if_neg h]
  exact enterFree_undecided s

/-- The tracker after a handover (R33, R34). -/
theorem handover_tracker (reason : ChangeReason) (s : State) :
    (handover reason s).tracker =
      { (freed s).tracker with
        reference := chooseReference s, handoverCount := nextHandover s.tracker.handoverCount, side := .unknown
        crossingCloses := 0, forcedRun := 0
        change := some ⟨reason, s.tracker.reference, chooseReference s, (freed s).tracker.decision,
          nextHandover s.tracker.handoverCount⟩ } := by
  have hc : chooseReference (freed s) = chooseReference s := chooseReference_of_keeps (does_freed s).keeps
  rw [← hc, ← freed_handoverCount s]
  exact recordChange_tracker _ _ _ _

/-- A handover raises REFERENCE_CHANGE, and its boundaries raise nothing (R34). -/
theorem handover_raised (reason : ChangeReason) (s : State) : Raised 5 s (handover reason s) := by
  have hn : (freed s).notices = s.notices := (does_freed s).keeps.notices
  have h : Raised 5 (freed s) (handover reason s) := recordChange_raised reason _ _ _
  rwa [Raised, hn] at h

/-- With no candidate that qualifies, or a reference held, none is acquired (R32). -/
theorem acquire_of_chosen {s : State} (h : s.tracker.reference = chooseReference s) : acquire s = s := by
  unfold acquire
  rw [← h]
  split
  · next hn hs => rw [hn] at hs; cases hs
  · rfl

theorem acquire_of_held {s : State} {c : Chan} (h : s.tracker.reference = some c) : acquire s = s := by
  unfold acquire
  rw [h]

/-- A handover leaves no candidate to acquire: it has judged them all (R32, R33). -/
theorem acquire_handover (reason : ChangeReason) (s : State) : acquire (handover reason s) = handover reason s := by
  refine acquire_of_chosen ?_
  rw [chooseReference_of_keeps (does_handover reason s).keeps, handover_tracker]

/-- A reference acquired (R32, R34). -/
theorem acquire_of_qualifies {s : State} {c : Chan} (h : s.tracker.reference = none) (hc : chooseReference s = some c) :
    acquire s = recordChange .acquired none (some c) (s.setTracker { s.tracker with
      reference := some c, handoverCount := nextHandover s.tracker.handoverCount, side := .unknown }) := by
  unfold acquire
  rw [h, hc]

end Sys2Proof.Machine
end

section
/-! SUPPORT. Crossings and forced closes in SEEKING and LOCKED (R24 to R28), and that they depend on nothing but the tracker
and the instant counter. -/

namespace Sys2Proof.Machine

open Sys2Proof

/-! ### Closes by a crossing -/

/-- The crossing closes of SEEKING with one more, which LOCKED does not count (R28). -/
def Tracker.closesNext (t : Tracker) : Nat := if t.mode = .seeking then t.crossingCloses + 1 else t.crossingCloses

/-- The mode that a close by a crossing leaves: the second of SEEKING locks (R28). -/
def Tracker.modeNext (t : Tracker) : TrackerMode := if 2 ≤ t.closesNext then .locked else t.mode

theorem crossingClose_tracker (n : Nat) (d : Direction) (s : State) :
    (crossingClose n d s).1.tracker =
      { s.tracker.make (s.tracker.entry n d s.tracker.modeNext) s.tracker.modeNext with
        crossingCloses := s.tracker.closesNext, forcedRun := 0 } := by
  rw [← makeBoundary_tracker n d s.tracker.modeNext (s.tracker.position + 1) s]
  rfl

theorem crossingClose_entry (n : Nat) (d : Direction) (s : State) :
    (crossingClose n d s).2 = some (s.tracker.entry n d s.tracker.modeNext) := rfl

/-! ### Forced closes -/

/-- Whether a forced close ends the mode: SEEKING at once, LOCKED the fourth time in a row (R27). -/
def Tracker.givesUp (t : Tracker) : Bool := decide (t.mode = .seeking ∨ 3 ≤ t.forcedRun)

/-- The tracker after a forced close's boundary (R27). -/
def Tracker.forced (t : Tracker) (n : Nat) (after : TrackerMode) : Tracker :=
  { t.make (t.entry n t.lastDirection.opposite after) after with
    forcedCloses := bump t.forcedCloses, forcedRun := t.forcedRun + 1 }

theorem forcedClose_entry (n : Nat) (s : State) :
    (forcedClose n s).2 = some (s.tracker.entry n s.tracker.lastDirection.opposite
      (if s.tracker.givesUp then .free else s.tracker.mode)) := by
  unfold Tracker.givesUp forcedClose
  dsimp only
  split <;> rfl

theorem forcedClose_goesOn (n : Nat) (s : State) (h : s.tracker.givesUp = false) :
    (forcedClose n s).1.tracker = s.tracker.forced n s.tracker.mode := by
  rw [Tracker.givesUp] at h
  simp only [forcedClose, h, Bool.false_eq_true, if_false]
  rw [makeBoundary_tracker]
  rfl

/-- A forced close that ends SEEKING or LOCKED enters FREE after its boundary, with a record of the change out of LOCKED. -/
theorem forcedClose_givesUp (n : Nat) (s : State) (h : s.tracker.givesUp = true) :
    ∃ u : State, u.tracker = s.tracker.forced n .free ∧ u.instant = s.instant ∧
      (forcedClose n s).1 = if s.tracker.mode = .locked
        then recordChange .unlocked s.tracker.reference s.tracker.reference (enterFree u) else enterFree u := by
  have hm := makeBoundary_tracker n s.tracker.lastDirection.opposite .free (s.tracker.position + 1) s
  have hi : (makeBoundary n s.tracker.lastDirection.opposite .free (s.tracker.position + 1) s).1.instant = s.instant :=
    (does_makeBoundary _ _ _ _ s).keeps .instant (by decide)
  refine ⟨(makeBoundary n s.tracker.lastDirection.opposite .free (s.tracker.position + 1) s).1.setTracker
    (s.tracker.forced n .free), rfl, hi, ?_⟩
  rw [Tracker.givesUp] at h
  simp only [forcedClose, h, if_true, hm]
  split <;> rfl

theorem Tracker.standing_of_change {t u : Tracker} (h : t.standing = u.standing) (c : Option ReferenceChange) :
    ({ t with change := c } : Tracker).standing = ({ u with change := c } : Tracker).standing :=
  congrArg (fun x : Tracker => { x with change := c }) h

/-- What FREE leaves standing after a forced close that ends SEEKING or LOCKED. -/
theorem forcedClose_standing (n : Nat) (s : State) (h : s.tracker.givesUp = true) :
    ∃ change, (forcedClose n s).1.tracker.standing =
      ({ s.tracker with
          mode := .free, crossingCloses := 0, forcedRun := 0, forcedCloses := bump s.tracker.forcedCloses
          change := change } : Tracker).standing := by
  obtain ⟨u, hu, -, hf⟩ := forcedClose_givesUp n s h
  have hs := enterFree_standing u
  rw [hu] at hs
  rw [hf]
  split
  · refine ⟨some ⟨.unlocked, s.tracker.reference, s.tracker.reference, (enterFree u).tracker.decision,
      (enterFree u).tracker.handoverCount⟩, ?_⟩
    rw [recordChange_tracker]
    exact Tracker.standing_of_change hs _
  · exact ⟨s.tracker.change, hs⟩

/-- A forced close out of LOCKED for the fourth time in a row is recorded as UNLOCKED, and raises REFERENCE_CHANGE (R27). -/
theorem forcedClose_unlocks {n : Nat} {s : State} (hm : s.tracker.mode = .locked) (h : s.tracker.givesUp = true) :
    (forcedClose n s).1.tracker.change.map (fun c => (c.reason, c.previous, c.next)) =
        some (.unlocked, s.tracker.reference, s.tracker.reference) ∧
      hasSource (forcedClose n s).1.notices.requests 5 = true := by
  obtain ⟨u, -, -, hf⟩ := forcedClose_givesUp n s h
  rw [hf, if_pos hm]
  exact ⟨by rw [recordChange_tracker]; rfl, hasSource_of_raised (recordChange_raised _ _ _ _)⟩

theorem givesUp_of_fourth {t : Tracker} (h : t.mode = .seeking ∨ 4 ≤ t.forcedRun + 1) : t.givesUp = true :=
  decide_eq_true (h.imp_right Nat.le_of_succ_le_succ)

theorem goesOn_of_locked {t : Tracker} (hm : t.mode = .locked) (h : t.forcedRun + 1 < 4) : t.givesUp = false :=
  decide_eq_false (not_or.mpr ⟨by rw [hm]; nofun, by omega⟩)

/-- The counters and the reference after any forced close (R27). -/
theorem forcedClose_counts (n : Nat) (s : State) :
    (forcedClose n s).1.tracker.forcedCloses = bump s.tracker.forcedCloses ∧
      (forcedClose n s).1.tracker.reference = s.tracker.reference := by
  cases hg : s.tracker.givesUp with
  | false =>
    rw [forcedClose_goesOn n s hg]
    exact ⟨rfl, rfl⟩
  | true =>
    obtain ⟨change, hs⟩ := forcedClose_standing n s hg
    exact ⟨(Tracker.field_of_standing Tracker.forcedCloses hs).trans rfl,
      (Tracker.field_of_standing Tracker.reference hs).trans rfl⟩

/-! ### The instant after the decision point -/

theorem decideByCrossing_close {n : Nat} {d : Direction} {s : State} (h : 52 ≤ s.tracker.position + 1) :
    decideByCrossing n (some d) s = crossingClose n d s := if_pos h

theorem decideByCrossing_chatter {n : Nat} {d : Direction} {s : State} (h : ¬52 ≤ s.tracker.position + 1) :
    decideByCrossing n (some d) s = (s.setTracker { s.tracker with
      position := s.tracker.position + 1, decision := some n, chatter := bump s.tracker.chatter }, none) := if_neg h

theorem decideByCrossing_forced {n : Nat} {s : State} (h : 76 ≤ s.tracker.position + 1) :
    decideByCrossing n none s = forcedClose n s := if_pos h

theorem decideByCrossing_open {n : Nat} {s : State} (h : ¬76 ≤ s.tracker.position + 1) :
    decideByCrossing n none s =
      (s.setTracker { s.tracker with position := s.tracker.position + 1, decision := some n }, none) := if_neg h

/-- Deciding an instant changes neither the reference nor the handover count. -/
theorem decideByCrossing_reference (n : Nat) (crossing : Option Direction) (s : State) :
    (decideByCrossing n crossing s).1.tracker.reference = s.tracker.reference ∧
      (decideByCrossing n crossing s).1.tracker.handoverCount = s.tracker.handoverCount := by
  cases crossing with
  | some d =>
    by_cases h : 52 ≤ s.tracker.position + 1
    · rw [decideByCrossing_close h, crossingClose_tracker]
      exact ⟨rfl, rfl⟩
    · rw [decideByCrossing_chatter h]
      exact ⟨rfl, rfl⟩
  | none =>
    by_cases h : 76 ≤ s.tracker.position + 1
    · rw [decideByCrossing_forced h]
      cases hg : s.tracker.givesUp with
      | false =>
        rw [forcedClose_goesOn n s hg]
        exact ⟨rfl, rfl⟩
      | true =>
        obtain ⟨change, hs⟩ := forcedClose_standing n s hg
        exact ⟨(Tracker.field_of_standing Tracker.reference hs).trans rfl,
          (Tracker.field_of_standing Tracker.handoverCount hs).trans rfl⟩
    · rw [decideByCrossing_open h]
      exact ⟨rfl, rfl⟩

theorem forcedClose_congr {s u : State} (h : u.tracker = s.tracker) (hi : u.instant = s.instant) (n : Nat) :
    (forcedClose n u).1.tracker = (forcedClose n s).1.tracker ∧ (forcedClose n u).2 = (forcedClose n s).2 := by
  refine ⟨?_, by rw [forcedClose_entry, forcedClose_entry, h]⟩
  cases hg : s.tracker.givesUp with
  | false => rw [forcedClose_goesOn n s hg, forcedClose_goesOn n u (by rw [h, hg]), h]
  | true =>
    obtain ⟨s', hs, his, hsf⟩ := forcedClose_givesUp n s hg
    obtain ⟨u', hu, hiu, huf⟩ := forcedClose_givesUp n u (by rw [h, hg])
    have hfree : (enterFree u').tracker = (enterFree s').tracker :=
      enterFree_congr (by rw [hu, hs, h]) (by rw [hiu, his, hi])
    rw [hsf, huf, h]
    split
    · rw [recordChange_tracker, recordChange_tracker, hfree]
    · exact hfree

theorem decideByCrossing_congr {s u : State} (h : u.tracker = s.tracker) (hi : u.instant = s.instant) (n : Nat)
    (crossing : Option Direction) :
    (decideByCrossing n crossing u).1.tracker = (decideByCrossing n crossing s).1.tracker ∧
      (decideByCrossing n crossing u).2 = (decideByCrossing n crossing s).2 := by
  have hp : u.tracker.position = s.tracker.position := congrArg Tracker.position h
  cases crossing with
  | some d =>
    by_cases hc : 52 ≤ s.tracker.position + 1
    · rw [decideByCrossing_close hc, decideByCrossing_close (by rw [hp]; exact hc), crossingClose_tracker,
        crossingClose_tracker, crossingClose_entry, crossingClose_entry, h]
      exact ⟨rfl, rfl⟩
    · rw [decideByCrossing_chatter hc, decideByCrossing_chatter (by rw [hp]; exact hc), h]
      exact ⟨rfl, rfl⟩
  | none =>
    by_cases hc : 76 ≤ s.tracker.position + 1
    · rw [decideByCrossing_forced hc, decideByCrossing_forced (by rw [hp]; exact hc)]
      exact forcedClose_congr h hi n
    · rw [decideByCrossing_open hc, decideByCrossing_open (by rw [hp]; exact hc), h]
      exact ⟨rfl, rfl⟩

/-! ### An instant of the reference's lane -/

/-- The tracker takes an instant of the reference's lane. -/
theorem trackerTakeInstant_of_follows {s : State} {c : Chan} (h : s.tracker.reference = some c) (n : Nat)
    (x : Option SampleSet) (p : Nat) :
    trackerTakeInstant c.slot n x p s =
      let r := detectInstant s.survey.h (x.map (fun y => y.get c.index)) s.tracker.side
      let seen := s.setTracker { s.tracker with side := r.1 }
      if s.tracker.mode = .free then (acceptCrossing p r.2 seen, none)
      else if n = s.tracker.undecided then decideByCrossing n r.2 seen
      else (seen, none) := by
  unfold trackerTakeInstant
  rw [h]
  exact if_pos rfl

theorem acceptCrossing_congr {s u : State} (h : u.tracker = s.tracker) (p : Nat) (crossing : Option Direction) :
    (acceptCrossing p crossing u).tracker = (acceptCrossing p crossing s).tracker := by
  unfold acceptCrossing
  split
  · rw [State.setTracker_tracker, State.setTracker_tracker, h]
  · exact h

theorem acceptCrossing_reference (p : Nat) (crossing : Option Direction) (s : State) :
    (acceptCrossing p crossing s).tracker.reference = s.tracker.reference ∧
      (acceptCrossing p crossing s).tracker.handoverCount = s.tracker.handoverCount := by
  unfold acceptCrossing
  split <;> exact ⟨rfl, rfl⟩

theorem trackerTakeInstant_congr {s u : State} {c : Chan} (hc : s.tracker.reference = some c)
    (h : u.tracker = s.tracker) (hi : u.instant = s.instant) (hh : u.survey = s.survey) (n : Nat)
    (x : Option SampleSet) (p : Nat) :
    (trackerTakeInstant c.slot n x p u).1.tracker = (trackerTakeInstant c.slot n x p s).1.tracker ∧
      (trackerTakeInstant c.slot n x p u).2 = (trackerTakeInstant c.slot n x p s).2 := by
  rw [trackerTakeInstant_of_follows hc, trackerTakeInstant_of_follows (by rw [h]; exact hc), h, hh]
  dsimp only
  split
  · exact ⟨acceptCrossing_congr (by rfl) _ _, rfl⟩
  · split
    · exact decideByCrossing_congr (by rfl) (by exact hi) _ _
    · exact ⟨rfl, rfl⟩

/-- Taking an instant changes neither the reference nor the handover count. -/
theorem trackerTakeInstant_reference {s : State} {c : Chan} (hc : s.tracker.reference = some c) (n : Nat)
    (x : Option SampleSet) (p : Nat) :
    (trackerTakeInstant c.slot n x p s).1.tracker.reference = some c ∧
      (trackerTakeInstant c.slot n x p s).1.tracker.handoverCount = s.tracker.handoverCount := by
  rw [trackerTakeInstant_of_follows hc, ← hc]
  dsimp only
  split
  · exact acceptCrossing_reference _ _ _
  · split
    · exact decideByCrossing_reference _ _ _
    · exact ⟨rfl, rfl⟩

/-- The side that the detector leaves: HIGH at h or more, LOW at −h − 1 or less, and otherwise as it was (R24). -/
theorem detect_side (h : Nat) (x : Code) (side : Side) :
    (detect h x side).1 =
      if (h : Int) ≤ x.toInt then .high else if x.toInt ≤ -(h : Int) - 1 then .low else side := by
  unfold detect
  split
  · rfl
  · split <;> rfl

/-- The detector's crossing: one where the side turns over (R24). -/
theorem detectInstant_crossing (h : Nat) (x : Option Code) (side : Side) :
    (detectInstant h x side).2 =
      if side = .low ∧ (detectInstant h x side).1 = .high then some .rising
      else if side = .high ∧ (detectInstant h x side).1 = .low then some .falling
      else none := by
  have still : (if side = .low ∧ side = .high then some Direction.rising
      else if side = .high ∧ side = .low then some .falling else none) = none := by cases side <;> rfl
  cases x with
  | none => exact still.symm
  | some y =>
    unfold detectInstant detect
    dsimp only
    split
    · cases side <;> rfl
    · split
      · cases side <;> rfl
      · exact still.symm

/-- The detector on the reference's code, as the side it leaves and whether that side turns over (R24). -/
theorem detectInstant_eq (h : Nat) (c : Chan) (x : Option SampleSet) (side after : Side)
    (ha : after = (detectInstant h (x.map (fun y => y.get c.index)) side).1) :
    detectInstant h (x.map (fun y => y.get c.index)) side =
      (after, if side = .low ∧ after = .high then some .rising
        else if side = .high ∧ after = .low then some .falling else none) := by
  rw [ha, ← detectInstant_crossing]

/-- How SEEKING and LOCKED decide an instant that carries a crossing at position 52 or more (R26, R28). -/
theorem crossing_decided {n : Nat} {d : Direction} {s : State} (h : 52 ≤ s.tracker.position + 1) :
    ∃ b, (decideByCrossing n (some d) s).2 = some b ∧ b.instant = n ∧ b.direction = d ∧
      b.locked = decide (s.tracker.mode = .locked) ∧
      (decideByCrossing n (some d) s).1.tracker.forcedRun = 0 ∧
      (decideByCrossing n (some d) s).1.tracker.position = 0 ∧
      (decideByCrossing n (some d) s).1.tracker.crossingCloses = s.tracker.closesNext ∧
      (decideByCrossing n (some d) s).1.tracker.mode = s.tracker.modeNext := by
  rw [decideByCrossing_close h, crossingClose_tracker, crossingClose_entry]
  exact ⟨_, rfl, rfl, rfl, rfl, rfl, rfl, rfl, rfl⟩

theorem modeNext_locked {t : Tracker} (h : t.mode = .locked) : t.modeNext = .locked := by
  rw [Tracker.modeNext, h, ite_self]

theorem closesNext_seeking {t : Tracker} (h : t.mode = .seeking) : t.closesNext = t.crossingCloses + 1 := if_pos h

end Sys2Proof.Machine
end

section
/-! SUPPORT. The entry in force and the held RMS code of a channel at a close of its lane (R38, R39, R42): the detector sets
them, and the episode unit leaves them. -/

namespace Sys2Proof.Machine

open Sys2Proof

/-! ### One channel replaced -/

theorem channel_slot_index (c : Chan) : channel c.slot c.index = c := by
  apply Fin.ext
  simp only [channel, Chan.slot, Chan.index]
  omega

theorem chan_setChan_same (s : State) (c : Chan) (x : ChannelState) : (s.setChan c x).chan c = x := by
  simp only [State.chan, State.setChan, State.setDetector_detector, Quad.get_set_same]

theorem chan_setChan_other (s : State) {c d : Chan} (x : ChannelState) (h : d ≠ c) :
    (s.setChan c x).chan d = s.chan d := by
  simp only [State.chan, State.setChan, State.setDetector_detector]
  by_cases hs : d.slot = c.slot
  · have hi : d.index ≠ c.index := fun hi =>
      h (by rw [← channel_slot_index d, ← channel_slot_index c, hs, hi])
    rw [hs, Quad.get_set_same, Quad.get_set_other _ _ hi]
  · rw [Quad.get_set_other _ _ hs]

theorem chan_of_keeps {ps : List Part} {s t : State} (h : Keeps ps s t) (c : Chan) (hd : .detector ∉ ps := by decide) :
    t.chan c = s.chan c := by
  have detector : t.detector = s.detector := h .detector hd
  rw [State.chan, State.chan, detector]

/-! ### The entry in force and the held code -/

/-- What a channel is rated by (R31): its THRESHOLD entry in force and its held RMS code. -/
def ChannelState.rating (c : ChannelState) : ThresholdEntry × Option Nat := (c.inForce, c.held)

/-- Every channel's entry in force and held RMS code are the same in two states. -/
def SameRatings (s t : State) : Prop := ∀ c, (t.chan c).rating = (s.chan c).rating

theorem SameRatings.refl (s : State) : SameRatings s s := fun _ => rfl

theorem SameRatings.trans {s t u : State} (h : SameRatings s t) (k : SameRatings t u) : SameRatings s u :=
  fun c => (k c).trans (h c)

theorem SameRatings.of_keeps {ps : List Part} {s t : State} (h : Keeps ps s t) (hd : .detector ∉ ps := by decide) :
    SameRatings s t := fun c => by rw [chan_of_keeps h c hd]

theorem SameRatings.foldl {α : Type} {f : State → α → State} (h : ∀ s a, SameRatings s (f s a)) (l : List α) (s : State) :
    SameRatings s (l.foldl f s) := by
  induction l generalizing s with
  | nil => exact SameRatings.refl s
  | cons a rest ih => exact (h s a).trans (ih _)

/-- A channel replaced with its entry in force and held code kept. -/
theorem sameRatings_setChan (s : State) (c : Chan) (x : ChannelState) (h : x.rating = (s.chan c).rating := by rfl) :
    SameRatings s (s.setChan c x) := fun d => by
  by_cases hd : d = c
  · rw [hd, chan_setChan_same, h]
  · rw [chan_setChan_other s x hd]

/-! ### The episode unit -/

theorem sameRatings_collectEvent (s : State) (ev : EventEntry) : SameRatings s (collectEvent s ev) := by
  unfold collectEvent
  split
  · exact SameRatings.refl s
  · exact sameRatings_setChan (s.setEpisodes _) _ _

theorem sameRatings_closeEventOf (f : EventFlags → EventFlags) (s : State) (c : Chan) :
    SameRatings s (closeEventOf f s c) := by
  unfold closeEventOf
  split
  · exact SameRatings.refl s
  · exact (sameRatings_setChan s c _).trans (SameRatings.of_keeps (does_countOut _ _ _).keeps)

theorem sameRatings_openEpisode (number : Nat) (events : List EventEntry) (s : State) :
    SameRatings s (openEpisode number events s) := by
  unfold openEpisode
  split
  · exact SameRatings.refl s
  · exact ((SameRatings.of_keeps (does_installEpisode _ _ _ s).keeps).trans
      (SameRatings.foldl sameRatings_collectEvent events _)).trans
      (SameRatings.of_keeps ((does_episodeOpened _ _ _).andThen (rs := captureParts) (does_raise 0 _)).keeps)

theorem sameRatings_reopen (s : State) (x : EventEntry × EventState) : SameRatings s (reopen s x) :=
  (sameRatings_setChan s _ _).trans (sameRatings_collectEvent _ _)

/-- The part with the open episode filed as one that goes on in the next, if events left one open (R56). -/
theorem does_fileContinues (s : State) (x : Episode) : Does closeParts s (noEpisode (raise 1 (fileEpisode x s))) :=
  ((does_fileEpisode x s).andThen (rs := closeParts) (does_raise 1 _)).andThen (does_noEpisode _)

theorem sameRatings_splitEpisode (number : Nat) (s : State) : SameRatings s (splitEpisode number s) := by
  unfold splitEpisode
  dsimp only
  split
  · next e site _ _ =>
    refine SameRatings.trans ?_ (((SameRatings.of_keeps (does_installEpisode _ _ _ _).keeps).trans
      (SameRatings.foldl sameRatings_reopen _ _)).trans (SameRatings.of_keeps
        ((does_episodeSplit _ _ _).andThen (rs := closeParts) (does_raise 0 _)).keeps))
    refine (SameRatings.foldl (sameRatings_closeEventOf id) e.openChannels s).trans ?_
    split
    · exact SameRatings.of_keeps (does_fileContinues _ _).keeps
    · exact SameRatings.refl _
  · exact SameRatings.refl s

theorem sameRatings_splitIfDue (number : Nat) (s : State) : SameRatings s (splitIfDue number s) := by
  unfold splitIfDue
  split
  · exact SameRatings.refl s
  · split
    · exact sameRatings_splitEpisode number s
    · exact SameRatings.refl s

/-- The episode unit leaves every channel's entry in force and held code as the detector has set them. -/
theorem sameRatings_episodeTakeClose (number : Nat) (outs : List ChannelOutcome) (s : State) :
    SameRatings s (episodeTakeClose number outs s) := by
  unfold episodeTakeClose
  dsimp only
  refine SameRatings.trans ?_ ((SameRatings.of_keeps ((Does.foldl does_countOutcome outs _).andThen (rs := closeParts)
    (does_closeIfEmpty _)).keeps).trans (sameRatings_splitIfDue number _))
  split
  · exact SameRatings.refl s
  · split
    · exact sameRatings_openEpisode _ _ s
    · exact SameRatings.foldl sameRatings_collectEvent _ s

/-! ### The detector -/

theorem runMachine_rating (ch : Chan) (k : LaneClose) (code : Option Nat) (c : ChannelState) :
    (runMachine ch k code c).1.rating = c.rating := by
  unfold runMachine
  dsimp only
  repeat' split
  all_goals rfl

/-- A staged entry is in force before the close is judged (R42). -/
theorem applyStaged_rating (c : ChannelState) : c.applyStaged.1.rating = (c.staged.getD c.inForce, c.held) := by
  unfold ChannelState.applyStaged
  split
  · next h => rw [h]; rfl
  · next h => rw [h]; rfl

/-- At a close a channel takes its staged entry and holds the RMS code, if the close has one (R38, R42). -/
theorem takeChannel_rating (ch : Chan) (live : Bool) (k : LaneClose) (code : Option Nat) (c : ChannelState) :
    (takeChannel ch live k code c).1.rating = (c.staged.getD c.inForce, code.or c.held) := by
  obtain ⟨hf, hh⟩ := Prod.mk.inj (applyStaged_rating c)
  unfold takeChannel
  dsimp only
  split
  · rw [runMachine_rating, ChannelState.rating, hf, hh]
    cases code <;> rfl
  · rw [ChannelState.rating, hf, hh]
    cases code <;> rfl

theorem channel_index_ne (i : Slot) {x y : Fin 4} (h : x ≠ y) : channel i x ≠ channel i y := fun he => by
  have hv := congrArg Fin.val he
  simp only [channel] at hv
  exact h (Fin.ext (by omega))

theorem detectorTakeChannel_rating (k : LaneClose) (codes : Quad (Option Nat)) (i : Slot)
    (acc : State × List ChannelOutcome × Bool) (x : Fin 4) :
    ((detectorTakeChannel k codes i acc x).1.chan (channel i x)).rating =
      ((acc.1.chan (channel i x)).staged.getD (acc.1.chan (channel i x)).inForce,
        (codes.get x).or (acc.1.chan (channel i x)).held) := by
  unfold detectorTakeChannel
  dsimp only
  rw [chan_setChan_same, takeChannel_rating]

theorem detectorTakeChannel_other (k : LaneClose) (codes : Quad (Option Nat)) (i : Slot)
    (acc : State × List ChannelOutcome × Bool) {x y : Fin 4} (h : y ≠ x) :
    (detectorTakeChannel k codes i acc x).1.chan (channel i y) = acc.1.chan (channel i y) :=
  chan_setChan_other _ _ (channel_index_ne i h)

theorem detectorTakeChannels_other (k : LaneClose) (codes : Quad (Option Nat)) (i : Slot) (l : List (Fin 4))
    (acc : State × List ChannelOutcome × Bool) {y : Fin 4} (h : y ∉ l) :
    (l.foldl (detectorTakeChannel k codes i) acc).1.chan (channel i y) = acc.1.chan (channel i y) := by
  induction l generalizing acc with
  | nil => rfl
  | cons x rest ih =>
    obtain ⟨hx, hr⟩ : y ≠ x ∧ y ∉ rest := by simpa using h
    rw [List.foldl_cons, ih _ hr, detectorTakeChannel_other k codes i acc hx]

theorem detectorTakeChannels_rating (k : LaneClose) (codes : Quad (Option Nat)) (i : Slot) (l : List (Fin 4))
    (hl : l.Nodup) (acc : State × List ChannelOutcome × Bool) {y : Fin 4} (h : y ∈ l) :
    ((l.foldl (detectorTakeChannel k codes i) acc).1.chan (channel i y)).rating =
      ((acc.1.chan (channel i y)).staged.getD (acc.1.chan (channel i y)).inForce,
        (codes.get y).or (acc.1.chan (channel i y)).held) := by
  induction l generalizing acc with
  | nil => cases h
  | cons x rest ih =>
    obtain ⟨hx, hr⟩ := List.nodup_cons.mp hl
    rw [List.foldl_cons]
    by_cases hy : y = x
    · rw [hy, detectorTakeChannels_other k codes i rest _ hx, detectorTakeChannel_rating]
    · rw [ih hr _ (List.mem_of_ne_of_mem hy h), detectorTakeChannel_other k codes i acc hy]

/-- A channel of the slot after the detector has taken its lane's close (R38, R42). -/
theorem detectorTakeClose_rating (k : LaneClose) (c : Chan) (s : State) :
    ((detectorTakeClose c.slot k s).1.chan c).rating =
      ((s.chan c).staged.getD (s.chan c).inForce, ((rmsCodes k).get c.index).or (s.chan c).held) := by
  have h := detectorTakeChannels_rating k (rmsCodes k) c.slot indexes (by decide) (s, [], false) (y := c.index)
    (by generalize c.index = x; revert x; decide)
  rwa [channel_slot_index] at h

theorem Quad.get_zip {α β γ : Type} (f : α → β → γ) (p : Quad α) (q : Quad β) (i : Fin 4) :
    (Quad.zip f p q).get i = f (p.get i) (q.get i) := by
  match i with
  | ⟨0, _⟩ => rfl
  | ⟨1, _⟩ => rfl
  | ⟨2, _⟩ => rfl
  | ⟨3, _⟩ => rfl

theorem Quad.get_map {α β : Type} (f : α → β) (q : Quad α) (i : Fin 4) : (q.map f).get i = f (q.get i) := by
  match i with
  | ⟨0, _⟩ => rfl
  | ⟨1, _⟩ => rfl
  | ⟨2, _⟩ => rfl
  | ⟨3, _⟩ => rfl

/-- The RMS code of an ungapped close (R38). -/
theorem rmsCodes_get {k : LaneClose} (h : k.gap = false) (x : Fin 4) :
    (rmsCodes k).get x = some (rmsCode (k.sumSquares.get x) (k.dataCount.get x)) := by
  rw [rmsCodes, h]
  exact Quad.get_zip _ _ _ x

end Sys2Proof.Machine
end

section
/-! SUPPORT. A request of the notice unit stands while the store is at work, which follows STORE_LOW alone (R111, R170). -/

namespace Sys2Proof.Machine

open Sys2Proof

/-- The set of one source holds no other. -/
theorem single_getLsbD_other {k j : Fin 12} (h : k ≠ j) : (1#12 <<< j.val).getLsbD k.val = false := by
  have hv : k.val ≠ j.val := fun e => h (Fin.ext e)
  simp only [BitVec.getLsbD_shiftLeft, BitVec.getLsbD_one]
  by_cases hlt : k.val < j.val
  · simp [hlt]
  · have hsub : k.val - j.val ≠ 0 := by omega
    simp [hsub]

theorem hasSource_addSource_other (set : BitVec 12) {k j : Fin 12} (h : k ≠ j) :
    hasSource (addSource set j) k = hasSource set k := by
  rw [hasSource, addSource, BitVec.getLsbD_or, single_getLsbD_other h, Bool.or_false, hasSource]

theorem hasSource_removeSource_other (set : BitVec 12) {k j : Fin 12} (h : k ≠ j) :
    hasSource (removeSource set j) k = hasSource set k := by
  have hk := k.isLt
  rw [hasSource, removeSource, BitVec.getLsbD_and, BitVec.getLsbD_not, single_getLsbD_other h, hasSource]
  simp [hk]

/-- A level source followed leaves every other request (R170). -/
theorem hasSource_follow_other (s : State) {k j : Fin 12} (h : k ≠ j) (holds : Bool) :
    hasSource (follow j holds s).notices.requests k = hasSource s.notices.requests k := by
  unfold follow
  split
  · rfl
  · split
    · rw [(raise_raised j s).1, hasSource_addSource_other _ h]
    · rw [judgeOffer_requests]
      exact hasSource_removeSource_other _ h

theorem takeId_notices (block : Nat) (a : Admitted) (s : State) : (takeId block a s).1.notices = s.notices :=
  (does_takeId block a s).keeps.notices

theorem startSecondaryBurst_notices (x : Secondary) (s : State) : (startSecondaryBurst x s).notices = s.notices := by
  cases x with
  | episode =>
    unfold startSecondaryBurst startEpisodeBurst
    dsimp only
    split
    · exact takeId_notices _ _ s
    · rfl
  | harmonic =>
    unfold startSecondaryBurst startHarmonicBurst
    dsimp only
    split
    · exact takeId_notices _ _ s
    · rfl
  | composer =>
    unfold startSecondaryBurst
    dsimp only
    split <;> rfl
  | readout => rfl

section Store

variable {k : Fin 12} (hk : k ≠ 4)
include hk

theorem hasSource_reclaimStep (e : DirEntry) (s : State) :
    hasSource (reclaimStep e s).notices.requests k = hasSource s.notices.requests k :=
  hasSource_follow_other _ hk _

theorem hasSource_request (ok : State → Bool) (n : Nat) (s : State) :
    hasSource (request ok n s).1.notices.requests k = hasSource s.notices.requests k := by
  induction n generalizing s with
  | zero => rfl
  | succ n ih =>
    unfold request
    split
    · rfl
    · split
      · rfl
      · exact (ih _).trans (hasSource_reclaimStep hk _ s)

theorem hasSource_growCapture (id : Nat) (s : State) :
    hasSource (growCapture id s).1.notices.requests k = hasSource s.notices.requests k := by
  unfold growCapture
  have hr : hasSource (requestAll (pagesAllowed 8 1) s).1.notices.requests k = hasSource s.notices.requests k :=
    hasSource_request hk _ _ s
  split
  · next s1 hs => rw [hs] at hr; exact hr
  · next s1 hs =>
    rw [hs] at hr
    have hp : (takePage s1).1.notices = s1.notices := (does_takePage s1).keeps.notices
    split
    · next s2 ht => rw [ht] at hp; rw [← hr, ← hp]
    · next s2 p ht =>
      rw [ht] at hp
      rw [← hr, ← hp]
      exact hasSource_follow_other _ hk _

theorem hasSource_startCaptureBurst (fuel : Nat) (s : State) :
    hasSource (startCaptureBurst fuel s).notices.requests k = hasSource s.notices.requests k := by
  induction fuel generalizing s with
  | zero => rfl
  | succ n ih =>
    unfold startCaptureBurst
    dsimp only
    split
    · rfl
    · split
      · rfl
      · next id _ =>
        have hg := hasSource_growCapture hk id s
        split
        · rfl
        · split
          · rfl
          · split
            · rfl
            · split
              · next s1 hs => rw [hs] at hg; exact hg
              · next s1 hs => rw [hs] at hg; exact (ih _).trans hg

/-- A grant of the port leaves every request but STORE_LOW's. -/
theorem hasSource_arbitrate (s : State) :
    hasSource (arbitrate s).notices.requests k = hasSource s.notices.requests k := by
  unfold arbitrate
  split
  · split
    · exact hasSource_startCaptureBurst hk _ _
    · split
      · exact congrArg (fun x : NoticeUnit => hasSource x.requests k) (startSecondaryBurst_notices _ _)
      · rfl
  · rfl

end Store

end Sys2Proof.Machine
end

section
/-! SUPPORT. A LANE_INSTANT of the reference's lane: what the tracker makes of the instant, and of the close it ends (R24, R31,
R33, R38). -/

namespace Sys2Proof.Machine

open Sys2Proof

/-- One operation's frame and then another's. -/
theorem Keeps.andThen {ps qs rs : List Part} {s t u : State} (h : Keeps ps s t) (k : Keeps qs t u)
    (hp : ∀ p ∈ ps, p ∈ rs := by decide) (hq : ∀ p ∈ qs, p ∈ rs := by decide) : Keeps rs s u :=
  fun p hr => p.same_trans (h p (mt (hp p) hr)) (k p (mt (hq p) hr))

/-! ### A close as the tracker sees it -/

/-- A held RMS code is too weak for a reference below a tenth of Nc, and never with Nc 0 (R31). -/
theorem strongEnough_of_held {c : ChannelState} {t : ThresholdEntry} {r : Nat} (h : c.rating = (t, some r)) :
    strongEnough c = false ↔ t.nc ≠ 0 ∧ r * 1000 < t.nc * 100 := by
  obtain ⟨hf, hh⟩ := Prod.mk.inj h
  rw [strongEnough, hf, hh]
  by_cases hn : t.nc = 0
  · simp [hn]
  · simp [hn]

/-- A gapped close, or one that leaves the reference strong, changes nothing in the tracker (R33). -/
theorem trackerTakeClose_strong {s : State} {c : Chan} {gap : Bool} (changed : Bool) (hc : s.tracker.reference = some c)
    (h : gap = true ∨ strongEnough (s.chan c) = true) : trackerTakeClose c.slot gap changed s = s := by
  have hw : (c.slot == c.slot && !gap && !strongEnough (s.chan c)) = false := by
    rcases h with h | h <;> simp [h]
  unfold trackerTakeClose
  rw [hc]
  simp only [hw, Bool.false_eq_true, if_false, acquire_of_held hc, ite_self]

/-- An ungapped close that leaves the reference weak hands it over (R33). -/
theorem trackerTakeClose_weak {s : State} {c : Chan} (changed : Bool) (hc : s.tracker.reference = some c)
    (h : strongEnough (s.chan c) = false) : trackerTakeClose c.slot false changed s = handover .weak s := by
  unfold trackerTakeClose
  rw [hc]
  simp only [h, beq_self_eq_true, Bool.not_false, Bool.and_self, Bool.true_or, if_true, acquire_handover]

/-- A close reaches the tracker after the other blocks, with the reference rated by it (R38, R42, log 13). -/
theorem deliverClose_rated (k : LaneClose) (position : Nat) (c : Chan) (s : State) :
    ∃ (w : State) (changed : Bool), Keeps (engineParts ++ episodeParts) s w ∧
      (w.chan c).rating =
        ((s.chan c).staged.getD (s.chan c).inForce, ((rmsCodes k).get c.index).or (s.chan c).held) ∧
      deliverClose c.slot k position s = trackerTakeClose c.slot k.gap changed w := by
  unfold deliverClose
  dsimp only
  generalize hs1 : s.setCap c.slot _ = s1
  have h1 : Does [.capture] s s1 := hs1 ▸ does_setCap s _ _
  have h2 := does_detectorTakeClose c.slot k s1
  have h3 := does_episodeTakeClose k.number (detectorTakeClose c.slot k s1).2.1 (detectorTakeClose c.slot k s1).1
  refine ⟨_, _, Does.keeps ?_, ?_, rfl⟩
  · exact ((h1.andThen (rs := engineParts ++ episodeParts) h2).andThen (rs := engineParts ++ episodeParts) h3).andThen
      (does_harmonicClose _ _ _ _)
  · have hr := detectorTakeClose_rating k c s1
    rw [chan_of_keeps h1.keeps] at hr
    rw [← hr]
    exact ((sameRatings_episodeTakeClose _ _ _).trans (SameRatings.of_keeps (does_harmonicClose _ _ _ _).keeps)) c

/-! ### An instant counted -/

@[simp] theorem count_hTotal (x : Option SampleSet) (clipped : Bool) (l : Lane) :
    (l.count x clipped).hTotal = l.hTotal + 1 := by cases x <;> rfl

@[simp] theorem count_gapMark (x : Option SampleSet) (clipped : Bool) (l : Lane) :
    (l.count x clipped).gapMark = (l.gapMark || x.isNone) := by
  cases x with
  | none => exact (Bool.or_true _).symm
  | some y => exact (Bool.or_false _).symm

theorem count_sumSquares (y : SampleSet) (clipped : Bool) (l : Lane) (x : Fin 4) :
    (l.count (some y) clipped).sumSquares.get x = l.sumSquares.get x + (y.get x).toInt.natAbs ^ 2 :=
  Quad.get_zip _ _ _ x

theorem count_dataCount (y : SampleSet) (clipped : Bool) (l : Lane) (x : Fin 4) :
    (l.count (some y) clipped).dataCount.get x = l.dataCount.get x + 1 := Quad.get_map _ _ x

/-- The set that the lane's queue holds for its next instant. -/
def setAt (i : Slot) (l : Lane) (s : State) : Option SampleSet := (takeSet l.position (s.slot i).ingress).1

theorem takeSet_gap {n : Nat} {f : IngressFrame} {rest : List IngressFrame} (h : n < f.next) :
    (takeSet n (f :: rest)).1 = none := by
  rw [takeSet, if_neg (by omega)]

theorem takeSet_data {n : Nat} {f : IngressFrame} {rest : List IngressFrame} (h : f.next = n) :
    (takeSet n (f :: rest)).1 = f.sets.head? := by
  rw [takeSet, if_pos h]
  cases f.sets <;> rfl

/-! ### An instant processed -/

/-- The part as the tracker takes the lane's instant: the capture unit and the harmonic engine have taken it, and the lane has
counted it (steps 1 to 3 of R15). -/
def countedInstant (i : Slot) (l : Lane) (s : State) : State :=
  let s1 := s.setCap i ((s.cap i).takeInstant l.position (setAt i l s) (busyBytes s i))
  (s1.setHarmonic (harmonicInstant i (setAt i l s) s1.harmonic)).setSlot i
    { s.slot i with
      ingress := (takeSet l.position (s.slot i).ingress).2, lane := some (l.count (setAt i l s) (s.slot i).clipped) }

theorem does_countedInstant (i : Slot) (l : Lane) (s : State) :
    Does [.capture, .harmonic, .registry, .slots] s (countedInstant i l s) :=
  ((does_setCap s i _).andThen (rs := [.capture, .harmonic, .registry, .slots])
    (does_engine _ _ (harmonicInstant_filed _ _ _))).andThen (does_setSlot _ i _)

/-- What the tracker makes of the lane's next instant, for the part before it. -/
def takenInstant (i : Slot) (l : Lane) (s : State) : State × Option Boundary :=
  trackerTakeInstant i l.position (setAt i l s) (l.hTotal + 1) s

/-- The tracker takes the instant as the blocks before it leave it. -/
theorem takenInstant_counted {s : State} {c : Chan} (hc : s.tracker.reference = some c) (l : Lane) :
    let t := trackerTakeInstant c.slot l.position (setAt c.slot l s)
      (l.count (setAt c.slot l s) (s.slot c.slot).clipped).hTotal (countedInstant c.slot l s)
    t.1.tracker = (takenInstant c.slot l s).1.tracker ∧ t.2 = (takenInstant c.slot l s).2 := by
  have hk := (does_countedInstant c.slot l s).keeps
  rw [count_hTotal]
  exact trackerTakeInstant_congr hc hk.tracker (hk .instant (by decide)) (hk .survey (by decide)) _ _ _

theorem boundaryAt_congr {s u : State} (h : u.tracker = s.tracker) (l : Lane) (n : Nat) (made : Option Boundary) :
    boundaryAt u l n made = boundaryAt s l n made := by
  rw [boundaryAt, boundaryAt, h]

/-- A lane closes where the boundary after its last one, listed or just made, is at its instant (R15). -/
theorem boundaryAt_isSome (s : State) (l : Lane) (n : Nat) (made : Option Boundary) :
    (boundaryAt s l n made).isSome = true ↔
      ∃ b ∈ s.tracker.list ++ made.toList, b.number = l.lastBoundary + 1 ∧ b.instant = n := by
  simp only [boundaryAt, List.find?_isSome, Bool.and_eq_true, beq_iff_eq]

/-- An instant of the reference's lane that ends no half-cycle leaves the tracker as it took the instant. -/
theorem processInstant_open {s : State} {c : Chan} (hc : s.tracker.reference = some c) (l : Lane)
    (h : boundaryAt (takenInstant c.slot l s).1 l l.position (takenInstant c.slot l s).2 = none) :
    (processInstant c.slot l s).tracker = (takenInstant c.slot l s).1.tracker := by
  obtain ⟨ht, hb⟩ := takenInstant_counted hc l
  rw [← boundaryAt_congr ht, ← hb] at h
  rw [← ht]
  unfold processInstant
  dsimp only
  split
  · rfl
  · next b hs => exact absurd (h.symm.trans hs) nofun

/-- The half-cycle that ends with an instant, as the lane hands it over (R15, R18). -/
structure EndsWith (l : Lane) (x : Option SampleSet) (k : LaneClose) : Prop where
  gap : k.gap = (l.gapMark || x.isNone)
  sum : ∀ y, x = some y → ∀ j, k.sumSquares.get j = l.sumSquares.get j + (y.get j).toInt.natAbs ^ 2
  count : ∀ y, x = some y → ∀ j, k.dataCount.get j = l.dataCount.get j + 1

theorem close_endsWith (l : Lane) (x : Option SampleSet) (clipped : Bool) (number instant : Nat) (d : Direction)
    (step : Option Nat) : EndsWith l x ((l.count x clipped).close number (some d) instant step) where
  gap := by simp [Lane.close]
  sum := by
    rintro y rfl j
    exact count_sumSquares y clipped l j
  count := by
    rintro y rfl j
    exact count_dataCount y clipped l j

/-- An instant of the reference's lane that ends a half-cycle delivers its close, once the tracker has taken the instant. -/
theorem processInstant_close {s : State} {c : Chan} (hc : s.tracker.reference = some c) (l : Lane)
    (h : (boundaryAt (takenInstant c.slot l s).1 l l.position (takenInstant c.slot l s).2).isSome = true) :
    ∃ (v : State) (k : LaneClose) (position : Nat), Keeps (.capture :: .slots :: trackerParts) s v ∧
      v.tracker = (takenInstant c.slot l s).1.tracker ∧ EndsWith l (setAt c.slot l s) k ∧
      processInstant c.slot l s = deliverClose c.slot k position v := by
  obtain ⟨ht, hb⟩ := takenInstant_counted hc l
  rw [← boundaryAt_congr ht, ← hb] at h
  unfold processInstant
  dsimp only
  split
  · next hs => exact absurd hs (Option.isSome_iff_ne_none.mp h)
  · next b hs =>
    refine ⟨_, _, _, ?_, ?_, close_endsWith _ _ _ _ _ _ _, rfl⟩
    · exact (((does_countedInstant c.slot l s).andThen (rs := .capture :: .slots :: trackerParts)
        (does_trackerTakeInstant _ _ _ _ _)).andThen (does_setLane _ _ _)).keeps
    · exact ht

/-- Whether the half-cycle that ends with an instant leaves its channel too weak for a reference: ungapped, with an RMS code
below a tenth of the Nc then in force (R31, R33, R42). -/
def WeakAt (l : Lane) (x : Option SampleSet) (c : Chan) (s : State) : Prop :=
  l.gapMark = false ∧ ((s.chan c).staged.getD (s.chan c).inForce).nc ≠ 0 ∧ ∃ y, x = some y ∧
    rmsCode (l.sumSquares.get c.index + (y.get c.index).toInt.natAbs ^ 2) (l.dataCount.get c.index + 1) * 1000 <
      ((s.chan c).staged.getD (s.chan c).inForce).nc * 100

/-- The close is weak for the tracker exactly where the half-cycle is. -/
theorem weakAt_iff {l : Lane} {x : Option SampleSet} {c : Chan} {s : State} {d : ChannelState} {k : LaneClose}
    (hk : EndsWith l x k)
    (hd : d.rating =
      ((s.chan c).staged.getD (s.chan c).inForce, ((rmsCodes k).get c.index).or (s.chan c).held)) :
    WeakAt l x c s ↔ k.gap = false ∧ strongEnough d = false := by
  have hgap : k.gap = false ↔ l.gapMark = false ∧ ∃ y, x = some y := by
    rw [hk.gap, Bool.or_eq_false_iff, Option.isNone_eq_false_iff, Option.isSome_iff_exists]
  have hcode : ∀ y, x = some y → k.gap = false → (strongEnough d = false ↔
      ((s.chan c).staged.getD (s.chan c).inForce).nc ≠ 0 ∧
        rmsCode (l.sumSquares.get c.index + (y.get c.index).toInt.natAbs ^ 2) (l.dataCount.get c.index + 1) * 1000 <
          ((s.chan c).staged.getD (s.chan c).inForce).nc * 100) := by
    intro y hx hg
    rw [rmsCodes_get hg, hk.sum y hx, hk.count y hx] at hd
    exact strongEnough_of_held hd
  constructor
  · rintro ⟨hl, hn, y, hx, hr⟩
    have hg := hgap.mpr ⟨hl, y, hx⟩
    exact ⟨hg, (hcode y hx hg).mpr ⟨hn, hr⟩⟩
  · rintro ⟨hg, hw⟩
    obtain ⟨hl, y, hx⟩ := hgap.mp hg
    obtain ⟨hn, hr⟩ := (hcode y hx hg).mp hw
    exact ⟨hl, hn, y, hx, hr⟩

/-- The tracker after an instant of the reference's lane: as it took the instant, unless the instant ends a half-cycle that
leaves the reference weak, which is then handed over (R24, R33). -/
theorem processInstant_tracker {s : State} {c : Chan} (hc : s.tracker.reference = some c) (l : Lane) :
    let d := takenInstant c.slot l s
    let closes := (boundaryAt d.1 l l.position d.2).isSome = true
    (¬(closes ∧ WeakAt l (setAt c.slot l s) c s) → (processInstant c.slot l s).tracker = d.1.tracker) ∧
      (closes → WeakAt l (setAt c.slot l s) c s →
        ∃ w, Keeps laneParts s w ∧ w.tracker = d.1.tracker ∧ processInstant c.slot l s = handover .weak w) := by
  intro d closes
  by_cases hcl : closes
  · obtain ⟨v, k, position, hv, hvt, hk, hp⟩ := processInstant_close hc l hcl
    obtain ⟨w, changed, hw, hr, hd⟩ := deliverClose_rated k position c v
    rw [chan_of_keeps hv] at hr
    have hwt : w.tracker = d.1.tracker := hw.tracker.trans hvt
    have href : w.tracker.reference = some c := by rw [hwt]; exact (trackerTakeInstant_reference hc _ _ _).1
    have hweak := weakAt_iff hk hr
    rw [hp, hd]
    refine ⟨fun hn => ?_, fun _ hy => ⟨w, hv.andThen hw, hwt, ?_⟩⟩
    · have hs : k.gap = true ∨ strongEnough (w.chan c) = true := by
        cases hg : k.gap with
        | true => exact .inl rfl
        | false =>
          cases he : strongEnough (w.chan c) with
          | true => exact .inr rfl
          | false => exact absurd ⟨hcl, hweak.mpr ⟨hg, he⟩⟩ hn
      rw [trackerTakeClose_strong changed href hs, hwt]
    · obtain ⟨hg, hs⟩ := hweak.mp hy
      rw [hg]
      exact trackerTakeClose_weak changed href hs
  · refine ⟨fun _ => processInstant_open hc l ?_, fun h => absurd h hcl⟩
    exact Option.not_isSome_iff_eq_none.mp hcl

/-! ### The row -/

theorem takeFrames_taken {p : Nat} {f : IngressFrame} {rest : List IngressFrame} (h : f.taken = true) :
    takeFrames p (f :: rest) = (f :: rest, 0) := by rw [takeFrames, if_pos h]

theorem Quad.set_get {α : Type} (q : Quad α) (i : Fin 4) : q.set i (q.get i) = q := by
  match i with
  | ⟨0, _⟩ => rfl
  | ⟨1, _⟩ => rfl
  | ⟨2, _⟩ => rfl
  | ⟨3, _⟩ => rfl

theorem setSlot_slot (s : State) (i : Slot) : s.setSlot i (s.slot i) = s := by
  rw [State.setSlot, State.slot, Quad.set_get]
  rfl

/-- A lane with a frame taken and its instant published processes that instant (R15 to R18). -/
theorem laneStep_processes {i : Slot} {l : Lane} {f : IngressFrame} {rest : List IngressFrame} {s : State}
    (hl : (s.slot i).lane = some l) (hq : (s.slot i).ingress = f :: rest) (ht : f.taken = true)
    (hp : published s i l.position = true) (hg : lagging s l = none) :
    ∃ u, Keeps [.uplink] s u ∧ laneStep i s = processInstant i l u := by
  have htake : takeFrames l.position (s.slot i).ingress = ((s.slot i).ingress, 0) := by rw [hq, takeFrames_taken ht]
  have hself : s.setSlot i { s.slot i with ingress := (s.slot i).ingress } = s := setSlot_slot s i
  refine ⟨s.setSession { s.session with stray := bumpBy s.session.stray 0 }, ?_, ?_⟩
  · intro p hp
    cases p <;> first | exact absurd (by decide) hp | exact rfl
  · unfold laneStep
    dsimp only
    split
    · next h => rw [hl] at h; cases h
    · next m h =>
      obtain rfl : l = m := Option.some.inj (hl.symm.trans h)
      rw [htake]
      dsimp only
      rw [hself]
      have hp' : published (s.setSession { s.session with stray := bumpBy s.session.stray 0 }) i l.position = true := hp
      have hg' : lagging (s.setSession { s.session with stray := bumpBy s.session.stray 0 }) l = none := hg
      rw [hp', hg', hq]
      rfl

/-- A LANE_INSTANT of the reference's lane whose frame is taken and whose instant is published. -/
structure Processes (c : Chan) (l : Lane) (x : Option SampleSet) (s : State) : Prop where
  lane : (s.slot c.slot).lane = some l
  taken : ∃ f rest, (s.slot c.slot).ingress = f :: rest ∧ f.taken = true
  data : setAt c.slot l s = x
  published : published s c.slot l.position = true
  near : lagging s l = none
  reference : s.tracker.reference = some c

/-- What a handover with WEAK leaves of a part whose tracker counted `count` handovers and named `candidates`. -/
structure HandedOverWeak (c : Chan) (count : Nat) (candidates : List Chan) (t : State) : Prop where
  mode : t.tracker.mode = .free
  reference : t.tracker.reference = candidates.find? (qualifies t)
  handoverCount : t.tracker.handoverCount = (count + 1) % 2 ^ 32
  side : t.tracker.side = .unknown
  crossingCloses : t.tracker.crossingCloses = 0
  forcedRun : t.tracker.forcedRun = 0
  change : t.tracker.change =
    some ⟨.weak, some c, t.tracker.reference, t.tracker.decision, t.tracker.handoverCount⟩
  raised : hasSource t.notices.requests 5 = true

/-- A grant of the port after a handover leaves what the handover has done. -/
theorem handedOverWeak_arbitrate {c : Chan} {w : State} (hc : w.tracker.reference = some c) :
    HandedOverWeak c w.tracker.handoverCount w.tracker.candidates (arbitrate (handover .weak w)) := by
  have hk := (does_arbitrate (handover .weak w)).keeps
  have ht := hk.tracker.trans (handover_tracker .weak w)
  have hq : qualifies (arbitrate (handover .weak w)) = qualifies w :=
    (qualifies_of_keeps hk).trans (qualifies_of_keeps (does_handover .weak w).keeps)
  constructor
  case mode => rw [ht]; exact freed_mode w
  case reference => rw [ht, hq]; rfl
  case handoverCount => rw [ht]; rfl
  case side => rw [ht]
  case crossingCloses => rw [ht]
  case forcedRun => rw [ht]
  case change => rw [ht, ← hc]
  case raised => rw [hasSource_arbitrate (by decide)]; exact hasSource_of_raised (handover_raised .weak w)

/-- What a LANE_INSTANT of the reference's lane makes of the tracker. -/
theorem laneInstant_tracker {c : Chan} {l : Lane} {x : Option SampleSet} {s : State} (h : Processes c l x s) :
    let d := trackerTakeInstant c.slot l.position x (l.hTotal + 1) s
    let closes := ∃ b ∈ d.1.tracker.list ++ d.2.toList, b.number = l.lastBoundary + 1 ∧ b.instant = l.position
    let t := arbitrate (laneStep c.slot s)
    (¬(closes ∧ WeakAt l x c s) → t.tracker = d.1.tracker) ∧
      (closes → WeakAt l x c s → HandedOverWeak c s.tracker.handoverCount s.tracker.candidates t) := by
  obtain ⟨f, rest, hq, ht⟩ := h.taken
  obtain ⟨u, hu, hstep⟩ := laneStep_processes h.lane hq ht h.published h.near
  intro d closes t
  have hut : u.tracker = s.tracker := hu.tracker
  have huc : u.tracker.reference = some c := by rw [hut]; exact h.reference
  have hslot : u.slot c.slot = s.slot c.slot := congrArg (fun q => Quad.get q c.slot) (hu .slots (by decide))
  have hx : setAt c.slot l u = x := by rw [setAt, hslot]; exact h.data
  have hd : (takenInstant c.slot l u).1.tracker = d.1.tracker ∧ (takenInstant c.slot l u).2 = d.2 := by
    rw [takenInstant, hx]
    exact trackerTakeInstant_congr h.reference hut (hu .instant (by decide)) (hu .survey (by decide)) _ _ _
  have hclose : closes ↔
      (boundaryAt (takenInstant c.slot l u).1 l l.position (takenInstant c.slot l u).2).isSome = true := by
    rw [boundaryAt_isSome, hd.1, hd.2]
  have hweak : WeakAt l x c u ↔ WeakAt l x c s := by rw [WeakAt, WeakAt, chan_of_keeps hu]
  obtain ⟨hkept, hover⟩ := processInstant_tracker huc l
  rw [← hclose, hx, hweak] at hkept hover
  have htrack : t.tracker = (processInstant c.slot l u).tracker := by
    rw [← hstep]
    exact (does_arbitrate _).keeps.tracker
  refine ⟨fun hn => by rw [htrack, hkept hn, hd.1], fun hcl hw => ?_⟩
  obtain ⟨w, hk, hwt, hp⟩ := hover hcl hw
  obtain ⟨href, hcount⟩ := trackerTakeInstant_reference h.reference l.position x (l.hTotal + 1)
  have hwd : w.tracker = d.1.tracker := hwt.trans hd.1
  have hcand : w.tracker.candidates = s.tracker.candidates := (candidates_of_keeps hk).trans (candidates_of_keeps hu)
  have hover := handedOverWeak_arbitrate (c := c) (w := w) (by rw [hwd]; exact href)
  rw [hcand, hwd, hcount, ← hp, ← hstep] at hover
  exact hover

end Sys2Proof.Machine
end

section
/-! The statements about the cycle tracker (02), settled. -/

namespace Sys2Proof.Machine

open Sys2Proof

/-- Settles O25: the entry, the list and the tracker are those of `Tracker.entry` and `Tracker.make`, and L_prev is judged by
the mode and the newest two boundaries. -/
theorem boundariesCarryTheirCycle : Obligations.BoundariesCarryTheirCycle := by
  intro n d after length s r
  have ht : r.1.tracker = s.tracker.make (s.tracker.entry n d after) after := makeBoundary_tracker n d after length s
  have hb : r.2 = s.tracker.entry n d after := rfl
  refine ⟨rfl, rfl, rfl, rfl, rfl, ?falling, ?rising, ?list, by rw [ht]; rfl, by rw [ht]; rfl, by rw [ht]; rfl,
    by rw [ht]; rfl, by rw [ht]; rfl, by rw [ht]; rfl, by rw [ht]; rfl, (does_makeBoundary n d after length s).keeps⟩
  case falling =>
    rintro rfl
    rfl
  case rising =>
    rintro rfl
    obtain ⟨hcycle, hprev⟩ := rising_cycle s.tracker n after
    refine ⟨cycleLength s.tracker.list n (after == .free), hcycle, by rw [ht, hprev], fun h => ?_, fun pre p m ha hl => ?_⟩
    · exact cycleLength_of_free_or_short _ _ _ (h.imp_left (fun ha => by rw [ha]; rfl))
    · rw [beq_false_of_ne ha, hl, cycleLength_of_two]
  case list => rw [ht, hb]; exact appendBoundary_list _ _

/-- Settles O26: a LANE_INSTANT by `laneInstant_tracker`, and the four ways to decide an instant by the close, the chatter, the
open half-cycle and the forced close of `decideByCrossing`. -/
theorem crossingsDecideSeekingAndLocked : Obligations.CrossingsDecideSeekingAndLocked := by
  refine ⟨?lane, fun n s _ => ⟨fun d h => ?close, fun d h => ?chatter, fun h => ?opened, fun h => ?forced⟩⟩
  case lane =>
    rintro i l f rest c x s hl hq ht hx hp hg hc rfl side crossing seen d closes nc weak
    have hset : setAt c.slot l s = x := by
      rw [setAt, hq]
      rcases hx with ⟨hlt, rfl⟩ | ⟨hn, -, rfl⟩
      · exact takeSet_gap hlt
      · exact takeSet_data hn
    have hside : side = (detectInstant s.survey.h (x.map (fun y => y.get c.index)) s.tracker.side).1 := by
      cases x with
      | none => rfl
      | some y => exact (detect_side _ _ _).symm
    have hd : d = trackerTakeInstant c.slot l.position x (l.hTotal + 1) s := by
      rw [trackerTakeInstant_of_follows hc, detectInstant_eq _ _ _ _ side hside]
      simp only [acceptCrossing, Option.isSome_iff_ne_none]
      rfl
    have hall := laneInstant_tracker ⟨hl, ⟨f, rest, hq, ht⟩, hset, hp, hg, hc⟩
    rw [← hd] at hall
    obtain ⟨hkept, hover⟩ := hall
    refine ⟨arbitrate (laneStep c.slot s), rfl, hkept, fun hcl hw => ?_⟩
    have k := hover hcl hw
    exact ⟨k.mode, k.reference, k.handoverCount, k.side, k.crossingCloses, k.forcedRun, k.change, k.raised⟩
  case close =>
    obtain ⟨b, hb, hn, hd, hlk, hrun, hpos, hcloses, hmode⟩ := crossing_decided (n := n) (d := d) h
    refine ⟨b, hb, hn, hd, hlk, hrun, hpos, fun hm => ?_, fun hm => ⟨?_, ?_⟩⟩
    · rw [hmode, modeNext_locked hm]
    · rw [hcloses, closesNext_seeking hm]
    · rw [hmode, Tracker.modeNext, closesNext_seeking hm, hm]
  case chatter => exact decideByCrossing_chatter (by omega)
  case opened => exact decideByCrossing_open (by omega)
  case forced =>
    rw [decideByCrossing_forced h]
    obtain ⟨hcount, href⟩ := forcedClose_counts n s
    refine ⟨_, forcedClose_entry n s, rfl, rfl, rfl, hcount, href, fun hm hr => ?_, fun hr => ?_, fun hm hr => ?_⟩
    · rw [forcedClose_goesOn n s (goesOn_of_locked hm hr)]
      exact ⟨hm, rfl⟩
    · obtain ⟨change, hs⟩ := forcedClose_standing n s (givesUp_of_fourth hr)
      exact ⟨(Tracker.field_of_standing Tracker.mode hs).trans rfl,
        (Tracker.field_of_standing Tracker.forcedRun hs).trans rfl,
        (Tracker.field_of_standing Tracker.crossingCloses hs).trans rfl⟩
    · exact forcedClose_unlocks hm (givesUp_of_fourth (.inr hr))

/-- Settles O27, by the tracker that `handover` and `acquire` leave. -/
theorem handoverTakesTheFirstCandidate : Obligations.HandoverTakesTheFirstCandidate := by
  refine ⟨fun reason s => ?_, fun s hr => ⟨fun hn => ?_, fun c hc => ?_⟩⟩
  · have ht := handover_tracker reason s
    refine ⟨?mode, fun hm => ?undecided, by rw [ht]; rfl, by rw [ht]; rfl, by rw [ht], by rw [ht], by rw [ht], by rw [ht],
      handover_raised reason s, (does_handover reason s).on.keeps⟩
    case mode => rw [ht]; exact freed_mode s
    case undecided => rw [ht]; exact freed_undecided s hm
  · exact acquire_of_chosen (hr.trans hn.symm)
  · rw [acquire_of_qualifies hr hc]
    exact ⟨recordChange_tracker _ _ _ _, recordChange_raised _ _ _ _,
      ((does_setTracker s _).andThen (does_recordChange _ _ _ _)).keeps⟩

end Sys2Proof.Machine
end

section
/-! SUPPORT. A channel at a close of its lane (R38 to R47): the event machine, an equation for each case. -/

namespace Sys2Proof.Machine

open Sys2Proof

/-! ### The thresholds -/

/-- A channel in NORMAL at a code that passes a threshold: the state and kind it opens an event in (R44). -/
def PassesThreshold (t : ThresholdEntry) (r : Nat) (st : EventState) (kind : EventKind) : Prop :=
  (r * 1000 < t.nc * t.ti ∧ (st, kind) = (EventState.interrupted, EventKind.interruption)) ∨
    (t.nc * t.ti ≤ r * 1000 ∧ r * 1000 < t.nc * t.ts ∧ (st, kind) = (.dip, .dip)) ∨
    (t.nc * t.ti ≤ r * 1000 ∧ t.nc * t.ts ≤ r * 1000 ∧ t.nc * t.tw < r * 1000 ∧ (st, kind) = (.swell, .swell))

theorem judgeNormal_of_passes {t : ThresholdEntry} {r : Nat} {st : EventState} {kind : EventKind}
    (h : PassesThreshold t r st kind) : judgeNormal t r = some (st, kind) := by
  unfold judgeNormal
  rcases h with ⟨hi, hk⟩ | ⟨hi, hs, hk⟩ | ⟨hi, hs, hw, hk⟩
  · rw [if_pos hi, hk]
  · rw [if_neg (Nat.not_lt.mpr hi), if_pos hs, hk]
  · rw [if_neg (Nat.not_lt.mpr hi), if_neg (Nat.not_lt.mpr hs), if_pos hw, hk]

theorem judgeNormal_quiet {t : ThresholdEntry} {r : Nat} (hi : t.nc * t.ti ≤ r * 1000) (hs : t.nc * t.ts ≤ r * 1000)
    (hw : r * 1000 ≤ t.nc * t.tw) : judgeNormal t r = none := by
  rw [judgeNormal, if_neg (Nat.not_lt.mpr hi), if_neg (Nat.not_lt.mpr hs), if_neg (Nat.not_lt.mpr hw)]

/-- An RMS code in permille of an Nc that is not 0 (R44, R46). -/
theorem permilleOf_eq_min {nc : Nat} (r : Nat) (h : 1 ≤ nc) : permilleOf r nc = min 65535 (r * 1000 / nc) := by
  rw [permilleOf, clamp, if_neg (show nc ≠ 0 by omega)]
  split <;> omega

/-! ### The event machine -/

section Machine

variable {ch : Chan} {k : LaneClose} {code : Option Nat} {c : ChannelState} {e : EventEntry} {r : Nat}

theorem runMachine_gap_normal (he : c.event = none) : runMachine ch k none c = (c, .nothing) := by
  simp only [runMachine, he]

theorem runMachine_quiet (he : c.event = none) (hj : judgeNormal c.inForce r = none) :
    runMachine ch k (some r) c = (c, .nothing) := by
  simp only [runMachine, he, hj]

theorem runMachine_opens {st : EventState} {kind : EventKind} (he : c.event = none)
    (hj : judgeNormal c.inForce r = some (st, kind)) :
    runMachine ch k (some r) c =
      ({ c with state := st, event := some (openEvent ch k c.inForce kind r) },
        .opened (openEvent ch k c.inForce kind r)) := by
  simp only [runMachine, he, hj]

theorem runMachine_unwatched (he : c.event = some e) (hw : c.inForce.watch = false) :
    runMachine ch k code c =
      (c.toNormal, .closed
        { countClose k c.inForce.nc code e with
          flags := { (countClose k c.inForce.nc code e).flags with unwatched := true } } c.listed) := by
  simp only [runMachine, he, hw, if_true]

theorem runMachine_gap_event (he : c.event = some e) (hw : c.inForce.watch = true) :
    runMachine ch k none c = ({ c with event := some (countClose k c.inForce.nc none e) }, .nothing) := by
  simp only [runMachine, he, hw, Bool.true_eq_false, if_false]

theorem runMachine_ends (he : c.event = some e) (hw : c.inForce.watch = true)
    (hj : judgeEvent c.inForce c.state r = .normal) :
    runMachine ch k (some r) c = (c.toNormal, .closed e c.listed) := by
  simp only [runMachine, he, hw, Bool.true_eq_false, if_false, hj, if_true]

theorem runMachine_goesOn {st : EventState} (he : c.event = some e) (hw : c.inForce.watch = true)
    (hj : judgeEvent c.inForce c.state r = st) (hst : st ≠ .normal) :
    runMachine ch k (some r) c =
      ({ c with
          state := st
          event := some (countClose k c.inForce.nc (some r) { e with kind := kindAfter st e.kind }) }, .nothing) := by
  simp only [runMachine, he, hw, Bool.true_eq_false, if_false, hj, if_neg hst]

end Machine

/-! ### A channel at a close -/

/-- A channel with the RMS code of a close held; a gapped close leaves the code held before (R38). -/
def ChannelState.hold (code : Option Nat) (c : ChannelState) : ChannelState := { c with held := code.or c.held }

/-- Steps 2 to 4 of R39, once the entry for the close is in force: the code held, and the event machine run for an eligible
channel and for one with an open event. -/
def judgeClose (ch : Chan) (live : Bool) (k : LaneClose) (code : Option Nat) (c : ChannelState) :
    ChannelState × ChannelOutcome :=
  if (live && c.inForce.watch) || c.event.isSome then runMachine ch k code (c.hold code) else (c.hold code, .nothing)

/-- A close is judged by the channel as a staged entry, or none, leaves it (step 1 of R39, R42). -/
theorem takeChannel_of_applied {c d : ChannelState} {b : Bool} (h : c.applyStaged = (d, b)) (ch : Chan) (live : Bool)
    (k : LaneClose) (code : Option Nat) :
    takeChannel ch live k code c =
      ((judgeClose ch live k code d).1, (judgeClose ch live k code d).2, b) := by
  unfold takeChannel judgeClose
  rw [h]
  cases code with
  | none => dsimp only [ChannelState.hold, Option.none_or]; split <;> rfl
  | some r => dsimp only [ChannelState.hold, Option.some_or]; split <;> rfl

theorem applyStaged_none {c : ChannelState} (h : c.staged = none) : c.applyStaged = (c, false) := by
  simp only [ChannelState.applyStaged, h]

theorem applyStaged_some {c : ChannelState} {t : ThresholdEntry} (h : c.staged = some t) :
    c.applyStaged =
      ({ c with
          inForce := t, staged := none, pendingUnwatched := false
          event := c.event.map (fun e =>
            if t.watch = true ∧ t ≠ c.inForce then { e with flags := { e.flags with rethreshold := true } } else e) },
        true) := by
  simp only [ChannelState.applyStaged, h]

section Close

variable {c : ChannelState} (hs : c.staged = none) {ch : Chan} {live : Bool} {k : LaneClose} {code : Option Nat}
include hs

/-- With nothing staged, the event machine is run for a live channel under watch and for one with an open event (R43). -/
theorem takeChannel_runs {m : ChannelState × ChannelOutcome}
    (hr : live = true ∧ c.inForce.watch = true ∨ c.event.isSome = true) (hm : runMachine ch k code (c.hold code) = m) :
    takeChannel ch live k code c = (m.1, m.2, false) := by
  have hc : ((live && c.inForce.watch) || c.event.isSome) = true := by
    rw [Bool.or_eq_true, Bool.and_eq_true]
    exact hr
  rw [takeChannel_of_applied (applyStaged_none hs), judgeClose, if_pos hc, hm]

/-- With nothing staged, a channel that is not eligible and has no event keeps its state (R43). -/
theorem takeChannel_idle (he : c.event = none) (hr : live = false ∨ c.inForce.watch = false) :
    takeChannel ch live k code c = (c.hold code, .nothing, false) := by
  have hc : ¬((live && c.inForce.watch) || c.event.isSome) = true := by
    rw [he]
    rcases hr with h | h <;> simp [h]
  rw [takeChannel_of_applied (applyStaged_none hs), judgeClose, if_neg hc]

/-- A gapped close leaves a channel without an event as it is. -/
theorem takeChannel_gap_normal (he : c.event = none) : takeChannel ch live k none c = (c, .nothing, false) := by
  by_cases hr : live = true ∧ c.inForce.watch = true
  · exact takeChannel_runs hs (.inl hr) (runMachine_gap_normal he)
  · refine takeChannel_idle hs he ?_
    exact (Decidable.not_and_iff_not_or_not.mp hr).imp Bool.eq_false_iff.mpr Bool.eq_false_iff.mpr

end Close

/-! ### An event at an ungapped close -/

/-- An event ends at a close: the channel returns to NORMAL, the event as it stands (R45, R47). -/
def Ended (e : EventEntry) (listed : Bool) (o : ChannelState × ChannelOutcome × Bool) : Prop :=
  o.1.state = .normal ∧ o.1.event = none ∧ o.2.1 = .closed e listed

/-- An event goes on over a close, which it counts: the channel's state and the event's kind from now on (R45, R46). -/
def GoesOn (k : LaneClose) (nc r : Nat) (listed : Bool) (st : EventState) (kind : EventKind) (e : EventEntry)
    (o : ChannelState × ChannelOutcome × Bool) : Prop :=
  o.1.state = st ∧ o.1.listed = listed ∧ o.2.1 = .nothing ∧
    ∃ x, o.1.event = some x ∧ CloseCounted k nc (some r) false kind e x

section Event

variable {c : ChannelState} (hs : c.staged = none) (hw : c.inForce.watch = true) {e : EventEntry}
  (he : c.event = some e) (ch : Chan) (k : LaneClose) {r : Nat}
include hs hw he

theorem takeChannel_ended (hj : judgeEvent c.inForce c.state r = .normal) :
    Ended e c.listed (takeChannel ch true k (some r) c) := by
  rw [takeChannel_runs hs (.inl ⟨rfl, hw⟩) (runMachine_ends he hw hj)]
  exact ⟨rfl, rfl, rfl⟩

theorem takeChannel_goesOn {st : EventState} (hj : judgeEvent c.inForce c.state r = st) (hst : st ≠ .normal) :
    GoesOn k c.inForce.nc r c.listed st (kindAfter st e.kind) e (takeChannel ch true k (some r) c) := by
  rw [takeChannel_runs hs (.inl ⟨rfl, hw⟩) (runMachine_goesOn he hw hj hst)]
  exact ⟨rfl, rfl, rfl, _, rfl, countClose_counted _ _ _ _ _⟩

end Event

/-! ### The states after an ungapped close (R45) -/

theorem judgeEvent_dip {st : EventState} (h : st = .dip) (t : ThresholdEntry) (r : Nat) :
    judgeEvent t st r =
      if r * 1000 < t.nc * t.ti then .interrupted else if t.nc * (t.ts + t.hy) ≤ r * 1000 then .normal else .dip := by
  rw [h]
  rfl

theorem judgeEvent_interrupted {st : EventState} (h : st = .interrupted) (t : ThresholdEntry) (r : Nat) :
    judgeEvent t st r =
      if t.nc * (t.ts + t.hy) ≤ r * 1000 then .normal
      else if t.nc * (t.ti + t.hy) ≤ r * 1000 then .dip
      else .interrupted := by
  rw [h]
  rfl

theorem judgeEvent_swell {st : EventState} (h : st = .swell) (t : ThresholdEntry) (r : Nat) :
    judgeEvent t st r = if r * 1000 ≤ t.nc * (t.tw - t.hy) then .normal else .swell := by
  rw [h]
  rfl

/-- An event closed for want of a watch counts its last close, with UNWATCHED (R46, R47). -/
theorem countClose_unwatched (k : LaneClose) (nc : Nat) (code : Option Nat) (e : EventEntry) :
    CloseCounted k nc code true e.kind e
      { countClose k nc code e with flags := { (countClose k nc code e).flags with unwatched := true } } := by
  obtain ⟨same, halfCycles, stop, flags, replaced, left⟩ := countClose_counted k nc code e.kind e
  refine ⟨same, halfCycles, stop, ?_, replaced, left⟩
  rw [Bool.or_true]
  exact congrArg (fun f : EventFlags => { f with unwatched := true }) flags

end Sys2Proof.Machine
end

section
/-! SUPPORT. What the reports of the episode unit to the capture unit leave (R65, R71): the episode but for its capture ids and
its NO_CAPTURE flag, and the episode number of each site. -/

namespace Sys2Proof.Machine

open Sys2Proof

/-! ### The number of a site's next episode -/

/-- The number of the next episode of a site, if there is one of the id (R128). -/
def State.nextEpisodeOf (s : State) (id : Nat) : Option Nat := (s.site id).map (fun x => x.nextEpisode)

theorem site_updateSite (id j : Nat) {f : SiteEntry → SiteEntry} (hf : ∀ e, (f e).id = e.id) (s : State) :
    (updateSite id f s).site j = (s.site j).map (fun e => if e.id = id then f e else e) := by
  have hid : (fun e : SiteEntry => e.id == j) ∘ (fun e => if e.id = id then f e else e) = fun e => e.id == j := by
    funext e
    by_cases he : e.id = id
    · simp only [Function.comp_apply, if_pos he, hf]
    · simp only [Function.comp_apply, if_neg he]
  rw [State.site, updateSite, State.setSites_sites, List.find?_map, hid, State.site]

theorem nextEpisodeOf_updateSite (id j : Nat) {f : SiteEntry → SiteEntry} (s : State) (hf : ∀ e, (f e).id = e.id)
    (hn : ∀ e, (f e).nextEpisode = e.nextEpisode) : (updateSite id f s).nextEpisodeOf j = s.nextEpisodeOf j := by
  rw [State.nextEpisodeOf, site_updateSite id j hf, Option.map_map, State.nextEpisodeOf]
  congr 1
  funext e
  by_cases he : e.id = id
  · simp only [Function.comp_apply, if_pos he, hn]
  · simp only [Function.comp_apply, if_neg he]

theorem site_of_keeps {ps : List Part} {s t : State} (h : Keeps ps s t) (id : Nat) (hr : .registry ∉ ps := by decide) :
    t.site id = s.site id := by
  have registry : t.sites.registry = s.sites.registry := h .registry hr
  rw [State.site, State.site, registry]

/-- Two site entries of one id are one entry, where ids stand once (R127). -/
theorem site_eq_of_id {r : List SiteEntry} (h : (r.map (fun e => e.id)).Nodup) {x y : SiteEntry} (hx : x ∈ r)
    (hy : y ∈ r) (he : x.id = y.id) : x = y := by
  induction r with
  | nil => cases hx
  | cons z rest ih =>
    rw [List.map_cons, List.nodup_cons] at h
    obtain ⟨hz, hrest⟩ := h
    rcases List.mem_cons.mp hx with rfl | hx' <;> rcases List.mem_cons.mp hy with rfl | hy'
    · rfl
    · exact absurd (he ▸ List.mem_map_of_mem hy') hz
    · exact absurd (he ▸ List.mem_map_of_mem hx') hz
    · exact ih hrest hx' hy'

/-- The OPEN site is the entry of its id (R127). -/
theorem site_of_openSite {s : State} {site : SiteEntry} (hr : RegistryOk s.sites.registry)
    (ho : s.openSite = some site) : s.site site.id = some site := by
  have hmem : site ∈ s.sites.registry := List.mem_of_find?_eq_some ho
  cases hs : s.site site.id with
  | none => exact absurd (beq_self_eq_true site.id) (List.find?_eq_none.mp hs site hmem)
  | some x =>
    have hid : x.id = site.id := by simpa using List.find?_some hs
    rw [site_eq_of_id hr.once (List.mem_of_find?_eq_some hs) hmem hid]

/-! ### The episode unit's own -/

/-- An episode but for what the capture unit adds to it: its capture ids and NO_CAPTURE (R49, R65). -/
def Episode.own (e : Episode) : Episode := { e with captureIds := [], flags := { e.flags with noCapture := false } }

/-- The episode unit but for what the capture unit adds to the open episode. -/
def EpisodeUnit.own (u : EpisodeUnit) : EpisodeUnit := { u with current := u.current.map Episode.own }

/-- What the capture unit leaves when it is told of episodes. -/
structure ToldCaptures (s t : State) : Prop where
  own : t.episodes.own = s.episodes.own
  numbers : ∀ id, t.nextEpisodeOf id = s.nextEpisodeOf id

theorem ToldCaptures.refl (s : State) : ToldCaptures s s := ⟨rfl, fun _ => rfl⟩

theorem ToldCaptures.trans {s t u : State} (h : ToldCaptures s t) (k : ToldCaptures t u) : ToldCaptures s u :=
  ⟨k.own.trans h.own, fun id => (k.numbers id).trans (h.numbers id)⟩

theorem ToldCaptures.foldl {α : Type} {f : State → α → State} (h : ∀ s a, ToldCaptures s (f s a)) (l : List α)
    (s : State) : ToldCaptures s (l.foldl f s) := by
  induction l generalizing s with
  | nil => exact ToldCaptures.refl s
  | cons a rest ih => exact (h s a).trans (ih _)

theorem ToldCaptures.of_keeps {ps : List Part} {s t : State} (h : Keeps ps s t) (he : .episodes ∉ ps := by decide)
    (hr : .registry ∉ ps := by decide) : ToldCaptures s t := by
  have episodes : t.episodes = s.episodes := h .episodes he
  exact ⟨congrArg EpisodeUnit.own episodes, fun id => congrArg _ (site_of_keeps h id hr)⟩

/-- An episode unit changed in nothing of its own. -/
theorem toldCaptures_setEpisodes (s : State) {u : EpisodeUnit} (h : u.own = s.episodes.own) :
    ToldCaptures s (s.setEpisodes u) := ⟨h, fun _ => rfl⟩

/-- A site entry changed with its id and its next episode's number kept. -/
theorem toldCaptures_updateSite (id : Nat) {f : SiteEntry → SiteEntry} (s : State)
    (hf : ∀ e, (f e).id = e.id := by exact fun _ => rfl)
    (hn : ∀ e, (f e).nextEpisode = e.nextEpisode := by exact fun _ => rfl) : ToldCaptures s (updateSite id f s) :=
  ⟨rfl, fun j => nextEpisodeOf_updateSite id j s hf hn⟩

/-! ### The store at work for a capture -/

theorem toldCaptures_reclaimStep (e : DirEntry) (s : State) : ToldCaptures s (reclaimStep e s) :=
  ((ToldCaptures.of_keeps (does_setStore [.directory] s _ (hc := by exact bump_le)).keeps).trans
    (ToldCaptures.of_keeps (does_setStore [.directory] _ _).keeps)).trans
    ((toldCaptures_updateSite e.site _).trans (ToldCaptures.of_keeps (does_followStoreLow _).keeps))

theorem toldCaptures_request (ok : State → Bool) (n : Nat) (s : State) : ToldCaptures s (request ok n s).1 := by
  induction n generalizing s with
  | zero => exact ToldCaptures.refl s
  | succ n ih =>
    unfold request
    split
    · exact ToldCaptures.refl s
    · split
      · exact ToldCaptures.refl s
      · exact (toldCaptures_reclaimStep _ s).trans (ih _)

theorem toldCaptures_requestRecord (kept p : Nat) (s : State) : ToldCaptures s (requestRecord kept p s).1 := by
  unfold requestRecord
  split
  · have h : ToldCaptures s (requestAll placeFree s).1 := toldCaptures_request _ _ s
    split
    · next s1 hs => rw [hs] at h; exact h
    · next s1 hs => rw [hs] at h; exact h.trans (toldCaptures_request _ _ s1)
  · exact ToldCaptures.refl s

theorem toldCaptures_createCapture (site : Nat) (s : State) : ToldCaptures s (createCapture site s).1 := by
  unfold createCapture
  have h := toldCaptures_requestRecord 8 1 s
  split
  · next s1 hs => rw [hs] at h; exact h
  · next s1 hs =>
    rw [hs] at h
    have hp : ToldCaptures s1 (takePage s1).1 := ToldCaptures.of_keeps (does_takePage s1).keeps
    split
    · next s2 hs2 => rw [hs2] at hp; exact h.trans hp
    · next s2 p hs2 =>
      rw [hs2] at hp
      exact (h.trans hp).trans ((ToldCaptures.of_keeps (does_setStore [.directory] s2 _).keeps).trans
        ((toldCaptures_updateSite site _).trans (ToldCaptures.of_keeps (does_followStoreLow _).keeps)))

/-! ### The capture unit -/

theorem toldCaptures_setCap (s : State) (i : Slot) (c : CaptureSlot) : ToldCaptures s (s.setCap i c) :=
  ToldCaptures.of_keeps (does_setCap s i c).keeps

theorem toldCaptures_addCaptureId (id : Nat) (s : State) : ToldCaptures s (addCaptureId id s) := by
  unfold addCaptureId
  split
  · next e he => exact toldCaptures_setEpisodes s (by rw [EpisodeUnit.own, EpisodeUnit.own, he]; rfl)
  · exact ToldCaptures.refl s

theorem toldCaptures_setNoCapture (s : State) : ToldCaptures s (setNoCapture s) := by
  unfold setNoCapture
  split
  · next e he => exact toldCaptures_setEpisodes s (by rw [EpisodeUnit.own, EpisodeUnit.own, he]; rfl)
  · exact ToldCaptures.refl s

theorem toldCaptures_startCapture (i : Slot) (site : Nat) (episode forced : Option Nat) (s : State) :
    ToldCaptures s (startCapture i site episode forced s).1 := by
  unfold startCapture
  have h := toldCaptures_createCapture site s
  split
  · next s1 hs => rw [hs] at h; exact h
  · next s1 id hs => rw [hs] at h; exact h.trans (toldCaptures_setCap s1 i _)

theorem toldCaptures_startForEpisode (i : Slot) (site number : Nat) (s : State) :
    ToldCaptures s (startForEpisode i site number s) := by
  unfold startForEpisode
  have h := toldCaptures_startCapture i site (some number) none s
  split
  · next s1 hs => rw [hs] at h; exact h.trans (toldCaptures_setNoCapture s1)
  · next s1 id hs => rw [hs] at h; exact h.trans (toldCaptures_addCaptureId id s1)

theorem toldCaptures_joinEpisode (i : Slot) (number : Nat) (s : State) : ToldCaptures s (joinEpisode i number s) := by
  unfold joinEpisode
  dsimp only
  split
  · split
    · exact (toldCaptures_setCap s i _).trans (toldCaptures_addCaptureId _ _)
    · exact toldCaptures_setCap s i _
  · exact toldCaptures_setCap s i _

theorem toldCaptures_episodeOpenedOn (site number : Nat) (s : State) (i : Slot) :
    ToldCaptures s (episodeOpenedOn site number s i) := by
  unfold episodeOpenedOn
  dsimp only
  split
  · split
    case h_1 => exact toldCaptures_startForEpisode i site number s
    case h_2 => exact toldCaptures_setCap s i _
    case h_3 =>
      split
      · exact toldCaptures_setCap s i _
      · split
        · exact toldCaptures_joinEpisode i number s
        · exact ToldCaptures.refl s
    case h_4 => exact toldCaptures_joinEpisode i number s
    all_goals
      split
      · exact toldCaptures_setCap s i _
      · exact ToldCaptures.refl s
  · exact ToldCaptures.refl s

theorem toldCaptures_splitOn (old new : Nat) (s : State) (i : Slot) : ToldCaptures s (splitOn old new s i) := by
  unfold splitOn
  dsimp only
  split
  · split
    · exact toldCaptures_setCap s i _
    · split
      · split
        · exact (toldCaptures_setCap s i _).trans (toldCaptures_addCaptureId _ _)
        · exact toldCaptures_setCap s i _
      · exact toldCaptures_setCap s i _
  · split
    · exact toldCaptures_setCap s i _
    · exact ToldCaptures.refl s

/-- EPISODE_OPEN after a report that an episode has opened (R65). -/
theorem toldCaptures_opened (site number : Nat) (s : State) : ToldCaptures s (raise 0 (episodeOpened site number s)) :=
  (ToldCaptures.foldl (toldCaptures_episodeOpenedOn site number) _ s).trans
    (ToldCaptures.of_keeps (does_raise 0 _).keeps)

/-- EPISODE_OPEN after a report of a split (R71). -/
theorem toldCaptures_split (old new : Nat) (s : State) : ToldCaptures s (raise 0 (episodeSplit old new s)) :=
  (ToldCaptures.foldl (toldCaptures_splitOn old new) _ s).trans (ToldCaptures.of_keeps (does_raise 0 _).keeps)

/-- The open episode is the one it was, but for what the capture unit has added. -/
theorem ToldCaptures.current {s t : State} (h : ToldCaptures s t) {e : Episode} (he : s.episodes.current = some e) :
    ∃ d, t.episodes.current = some d ∧ d.own = e.own := by
  have hc : t.episodes.current.map Episode.own = s.episodes.current.map Episode.own := congrArg EpisodeUnit.current h.own
  rw [he] at hc
  exact Option.map_eq_some_iff.mp hc

theorem ToldCaptures.outbox {s t : State} (h : ToldCaptures s t) : t.episodes.outbox = s.episodes.outbox := by
  have ho : t.episodes.own.outbox = s.episodes.own.outbox := by rw [h.own]
  exact ho

theorem ToldCaptures.lost {s t : State} (h : ToldCaptures s t) : t.episodes.lost = s.episodes.lost := by
  have hl : t.episodes.own.lost = s.episodes.own.lost := by rw [h.own]
  exact hl

end Sys2Proof.Machine
end

section
/-! SUPPORT. The record of an episode (R53, R54): its start and end are the first and last of its events, and its worst event
is the first of those that lie farthest from 1000 permille. -/

namespace Sys2Proof.Machine

open Sys2Proof

/-- The start of a record is the least of its events' starts. -/
theorem buildEpisode_start {e : Episode} (h : e.events ≠ []) :
    (((buildEpisode e).events).map (fun x => x.start)).min? = some (buildEpisode e).start := by
  simp only [buildEpisode]
  cases hv : e.events with
  | nil => exact absurd hv h
  | cons x rest => rw [List.map_cons, List.map_cons, List.min?_cons', List.foldl_map]; rfl

/-- The end of a record is the greatest of its events' ends. -/
theorem buildEpisode_stop {e : Episode} (h : e.events ≠ []) :
    (((buildEpisode e).events).map (fun x => x.stop)).max? = some (buildEpisode e).stop := by
  simp only [buildEpisode]
  cases hv : e.events with
  | nil => exact absurd hv h
  | cons x rest =>
    rw [List.map_cons, List.map_cons, List.max?_cons', List.foldl_map, List.foldl_cons, Nat.zero_max]

/-- An event that lies farther from 1000 permille than every event before it, and at least as far as every one after. -/
def FirstWorst (x : EventEntry) (l : List EventEntry) : Prop :=
  ∃ pre post, l = pre ++ x :: post ∧ (∀ y ∈ pre, distance y.permille 1000 < distance x.permille 1000) ∧
    ∀ y ∈ post, distance y.permille 1000 ≤ distance x.permille 1000

/-- The worse of the first worst event and one that follows is the first worst with it. -/
theorem firstWorst_worse {x : EventEntry} {l : List EventEntry} (h : FirstWorst x l) (y : EventEntry) :
    FirstWorst (worse x y) (l ++ [y]) := by
  obtain ⟨pre, post, rfl, hpre, hpost⟩ := h
  unfold worse
  split
  · next hy =>
    refine ⟨pre ++ x :: post, [], rfl, fun z hz => ?_, nofun⟩
    rcases List.mem_append.mp hz with hz | hz
    · exact Nat.lt_trans (hpre z hz) hy
    · rcases List.mem_cons.mp hz with rfl | hz
      · exact hy
      · exact Nat.lt_of_le_of_lt (hpost z hz) hy
  · next hy =>
    refine ⟨pre, post ++ [y], by simp, hpre, fun z hz => ?_⟩
    rcases List.mem_append.mp hz with hz | hz
    · exact hpost z hz
    · rw [List.mem_singleton.mp hz]
      exact Nat.not_lt.mp hy

theorem firstWorst_foldl {x : EventEntry} {l : List EventEntry} (h : FirstWorst x l) (rest : List EventEntry) :
    FirstWorst (rest.foldl worse x) (l ++ rest) := by
  induction rest generalizing x l with
  | nil => rwa [List.append_nil]
  | cons y rest ih => simpa using ih (firstWorst_worse h y)

/-- The worst channel of a record, with its permille, is that of the first worst of its events. -/
theorem buildEpisode_worst {e : Episode} (h : e.events ≠ []) :
    ∃ x, FirstWorst x (buildEpisode e).events ∧ (buildEpisode e).worst = x.chan ∧
      (buildEpisode e).worstPermille = x.permille := by
  simp only [buildEpisode]
  cases hv : e.events with
  | nil => exact absurd hv h
  | cons x rest => exact ⟨_, firstWorst_foldl ⟨[], [], rfl, nofun, nofun⟩ _, rfl, rfl⟩

theorem outboxEpisode_room (r : EpisodeRecord) {u : EpisodeUnit} (h : u.outbox.length < 4) :
    outboxEpisode r u = { u with outbox := u.outbox ++ [r] } := if_pos h

theorem outboxEpisode_full (r : EpisodeRecord) {u : EpisodeUnit} (h : 4 ≤ u.outbox.length) :
    outboxEpisode r u = { u with lost := bump u.lost } := if_neg (Nat.not_lt.mpr h)

/-- The episode unit and EPISODE_CLOSE once the open episode has closed (R53, R54). -/
theorem closeEpisode_closed {s : State} {e : Episode} (h : s.episodes.current = some e) :
    (closeEpisode s).episodes = { outboxEpisode (buildEpisode e) s.episodes with current := none } ∧
      hasSource (closeEpisode s).notices.requests 1 = true := by
  have hk := ((does_episodeClosed e.number (fileEpisode e s)).andThen (rs := [.notices, .dport, .capture])
    (does_raise 1 _)).keeps
  have episodes : (raise 1 (episodeClosed e.number (fileEpisode e s))).episodes = (fileEpisode e s).episodes :=
    hk .episodes (by decide)
  rw [closeEpisode, h]
  exact ⟨congrArg (fun u : EpisodeUnit => { u with current := none }) episodes,
    hasSource_of_raised (raise_raised 1 (episodeClosed e.number (fileEpisode e s)))⟩

end Sys2Proof.Machine
end

section
/-! SUPPORT. An episode that opens and collects the events of a close (R50, R51), and one that is split (R56). -/

namespace Sys2Proof.Machine

open Sys2Proof

/-! ### Opening -/

/-- An event collected while the list of the open episode has room (R51). -/
theorem collectEvent_listed {s : State} {e : Episode} (he : s.episodes.current = some e) (ev : EventEntry)
    (hl : e.events.length < 32) :
    collectEvent s ev = (s.setEpisodes { s.episodes with current := some { e with
      events := e.events ++ [(ev, true)], openChannels := e.openChannels ++ [ev.chan] } }).setChan ev.chan
        { s.chan ev.chan with listed := true } := by
  simp only [collectEvent, he, Episode.collect, if_pos hl, decide_eq_true hl]

/-- Events collected in turn, while the list of 32 has room for them all (R51). -/
theorem collectEvents_listed {s : State} {e : Episode} (he : s.episodes.current = some e) (evs : List EventEntry)
    (hl : e.events.length + evs.length ≤ 32) :
    (evs.foldl collectEvent s).episodes.current = some { e with
      events := e.events ++ evs.map (fun x => (x, true)), openChannels := e.openChannels ++ evs.map (fun x => x.chan) } := by
  induction evs generalizing s e with
  | nil => simpa using he
  | cons ev rest ih =>
    rw [List.length_cons] at hl
    have hc := congrArg (fun t => t.episodes.current) (collectEvent_listed he ev (by omega))
    rw [List.foldl_cons, ih hc (by simp only [List.length_append, List.length_singleton]; omega)]
    simp

/-- An episode that opens takes its site's next number, which moves on (R128). -/
theorem installEpisode_number {site : SiteEntry} {s : State} (h : s.site site.id = some site) (first : Nat)
    (flags : EpisodeFlags) :
    (installEpisode site first flags s).nextEpisodeOf site.id = some (nextSiteNumber site.nextEpisode) := by
  have hs := site_updateSite site.id site.id (f := fun x => { x with nextEpisode := nextSiteNumber x.nextEpisode })
    (fun _ => rfl) (s.setEpisodes { s.episodes with current := some (newEpisode site first s.clock.seconds flags) })
  have h' : (s.setEpisodes { s.episodes with current := some (newEpisode site first s.clock.seconds flags) }).site site.id =
      some site := h
  rw [h'] at hs
  rw [State.nextEpisodeOf, installEpisode, hs, Option.map_some, Option.map_some, if_pos rfl]

/-- The part with an episode open that holds the events of a close, as the capture unit is told of it (steps 1 and 2 of R50). -/
def collected (number : Nat) (evs : List EventEntry) (site : SiteEntry) (s : State) : State :=
  evs.foldl collectEvent (installEpisode site number EpisodeFlags.clear s)

theorem openEpisode_collected {s : State} {site : SiteEntry} (ho : s.openSite = some site) (number : Nat)
    (evs : List EventEntry) :
    openEpisode number evs s = raise 0 (episodeOpened site.id site.nextEpisode (collected number evs site s)) := by
  simp only [openEpisode, ho]
  rfl

/-- The episode that a close opens, but for its captures (R50). -/
theorem openEpisode_current {s : State} {site : SiteEntry} (ho : s.openSite = some site) (number : Nat)
    {evs : List EventEntry} (hl : evs.length ≤ 32) :
    ∃ d, (openEpisode number evs s).episodes.current = some d ∧
      d.own = { newEpisode site number s.clock.seconds EpisodeFlags.clear with
        events := evs.map (fun x => (x, true)), openChannels := evs.map (fun x => x.chan) } := by
  have hc := collectEvents_listed (s := installEpisode site number EpisodeFlags.clear s) rfl evs
    (e := newEpisode site number s.clock.seconds EpisodeFlags.clear) (by simpa [newEpisode] using hl)
  obtain ⟨d, hd, hown⟩ := (toldCaptures_opened site.id site.nextEpisode (collected number evs site s)).current hc
  exact ⟨d, by rw [openEpisode_collected ho, hd], hown⟩

/-- The OPEN site's number moves on as an episode opens (R128). -/
theorem openEpisode_nextEpisode {s : State} {site : SiteEntry} (ho : s.openSite = some site)
    (hs : s.site site.id = some site) (number : Nat) (evs : List EventEntry) :
    (openEpisode number evs s).nextEpisodeOf site.id = some (nextSiteNumber site.nextEpisode) := by
  have hc : (collected number evs site s).nextEpisodeOf site.id =
      (installEpisode site number EpisodeFlags.clear s).nextEpisodeOf site.id :=
    congrArg _ (site_of_keeps (Does.foldl does_collectEvent evs _).keeps site.id)
  rw [openEpisode_collected ho, (toldCaptures_opened _ _ _).numbers, hc]
  exact installEpisode_number hs number EpisodeFlags.clear

/-! ### Splitting -/

/-- A source raised leaves the requests of the others. -/
theorem hasSource_raise_other {k j : Fin 12} (h : k ≠ j) (s : State) :
    hasSource (raise j s).notices.requests k = hasSource s.notices.requests k := by
  rw [(raise_raised j s).1, hasSource_addSource_other _ h]

/-- The record of an episode that goes on in the next has CONTINUES (R56). -/
def Episode.continued (e : Episode) : Episode := { e with flags := { e.flags with continues := true } }

/-- The part once an episode, its open events counted out, is filed as one that goes on in the next (step 2 of R56). -/
def fileContinued (e : Episode) (s : State) : State := noEpisode (raise 1 (fileEpisode e.continued s))

/-- The part with a new episode opened as the one that goes on from a split one (step 3 of R56). -/
def installContinuation (site : SiteEntry) (number : Nat) (s : State) : State :=
  installEpisode site (number + 1) { EpisodeFlags.clear with continuation := true } s

theorem does_installContinuation (site : SiteEntry) (number : Nat) (s : State) :
    Does [.episodes, .registry] s (installContinuation site number s) := does_installEpisode _ _ _ s

/-- The entry that carries an open event over a split, from where its lane stands (step 4 of R56). -/
def carriedEvent (v : EventEntry) (l : Lane) : EventEntry :=
  { v with
    start := l.halfStart, stop := l.halfStart - 1, halfCycles := 0
    flags := ⟨false, false, false, false, false, false, true⟩ }

theorem closeEventOf_open {s : State} {c : Chan} {v : EventEntry} {e : Episode} (hv : (s.chan c).event = some v)
    (he : s.episodes.current = some e) :
    closeEventOf id s c = (s.setChan c (s.chan c).toNormal).setEpisodes
      { s.episodes with current := some (e.countOut v (s.chan c).listed) } := by
  have he' : (s.setChan c (s.chan c).toNormal).episodes.current = some e := he
  simp only [closeEventOf, hv, countOut, he']
  rfl

/-- A split of an episode with one open event: the event counted out, the old episode filed, the new one opened, and the event
opened again in it (R56). -/
theorem splitEpisode_one {s : State} {e : Episode} {site : SiteEntry} {ch : Chan} {v : EventEntry} (number : Nat)
    (he : s.episodes.current = some e) (ho : s.openSite = some site) (hc : e.openChannels = [ch])
    (hv : (s.chan ch).event = some v) :
    splitEpisode number s = raise 0 (episodeSplit e.number site.nextEpisode (reopen
      (installContinuation site number (fileContinued (e.countOut v (s.chan ch).listed) (closeEventOf id s ch)))
      (v, (s.chan ch).state))) := by
  have hopen : openEvents s e = [(v, (s.chan ch).state)] := by simp [openEvents, hc, hv]
  have hcount : (closeEventOf id s ch).episodes.current = some (e.countOut v (s.chan ch).listed) := by
    rw [closeEventOf_open hv he]
    rfl
  simp only [splitEpisode, he, ho, hopen, hc, List.foldl_cons, List.foldl_nil, hcount]
  rfl

/-- What filing the old episode of a split leaves of the part before the split. -/
structure SplitFiled (x : Episode) (ch : Chan) (s q : State) : Prop where
  episodes : q.episodes = { outboxEpisode (buildEpisode x.continued) s.episodes with current := none }
  chan : q.chan ch = (s.chan ch).toNormal
  others : ∀ c, c ≠ ch → q.chan c = s.chan c
  raised : hasSource q.notices.requests 1 = true
  keeps : Keeps [.notices, .dport, .episodes, .detector] s q

theorem outboxEpisode_current (r : EpisodeRecord) (u : EpisodeUnit) (x : Option Episode) :
    outboxEpisode r { u with current := x } = { outboxEpisode r u with current := x } := by
  unfold outboxEpisode
  dsimp only
  split <;> rfl

theorem splitFiled_of_open {s : State} {ch : Chan} {v : EventEntry} {e : Episode} (hv : (s.chan ch).event = some v)
    (he : s.episodes.current = some e) :
    SplitFiled (e.countOut v (s.chan ch).listed) ch s
      (fileContinued (e.countOut v (s.chan ch).listed) (closeEventOf id s ch)) := by
  have hk {x : Episode} (w : State) := ((does_fileEpisode x.continued w).andThen (rs := [.notices, .dport, .episodes])
    (does_raise 1 _)).andThen (rs := [.notices, .dport, .episodes]) (does_noEpisode _)
  have hchan (c : Chan) : (fileContinued (e.countOut v (s.chan ch).listed) (closeEventOf id s ch)).chan c =
      (s.setChan ch (s.chan ch).toNormal).chan c := by
    rw [closeEventOf_open hv he]
    exact chan_of_keeps (hk _).keeps c
  constructor
  case episodes =>
    have hr (w : State) : (raise 1 w).episodes = w.episodes := (does_raise 1 w).keeps .episodes (by decide)
    rw [closeEventOf_open hv he, fileContinued, noEpisode, hr, fileEpisode]
    simp only [State.setEpisodes_episodes, outboxEpisode_current]
  case chan => rw [hchan, chan_setChan_same]
  case others => exact fun c h => by rw [hchan, chan_setChan_other _ _ h]
  case raised => exact hasSource_of_raised (raise_raised 1 (fileEpisode _ _))
  case keeps =>
    exact ((does_closeEventOf id s ch).andThen (rs := [.notices, .dport, .episodes, .detector]) (hk _)).keeps

/-- What an event opened again in the new episode leaves of the part before (step 4 of R56, log 66). -/
structure Reopened (x : EventEntry) (st : EventState) (d : Episode) (s t : State) : Prop where
  episodes : t.episodes = { s.episodes with current := some { d with
    events := d.events ++ [(x, true)], openChannels := d.openChannels ++ [x.chan] } }
  chan : t.chan x.chan = { s.chan x.chan with state := st, event := some x, listed := true }
  others : ∀ c, c ≠ x.chan → t.chan c = s.chan c
  keeps : Keeps [.episodes, .detector] s t

theorem reopen_reopened {s : State} {v : EventEntry} {l : Lane} {d : Episode} (st : EventState)
    (hl : (s.slot v.chan.slot).lane = some l) (hd : s.episodes.current = some d) (hn : d.events.length < 32) :
    Reopened (carriedEvent v l) st d s (reopen s (v, st)) := by
  have hcarry : carryEvent s v = carriedEvent v l := by
    simp only [carryEvent, hl]
    rfl
  have ht : reopen s (v, st) = collectEvent
      (s.setChan v.chan { s.chan v.chan with state := st, event := some (carriedEvent v l) }) (carriedEvent v l) := by
    rw [reopen, hcarry]
    rfl
  have hk := (does_reopen s (v, st)).keeps
  rw [ht, collectEvent_listed (s := s.setChan v.chan _) hd _ hn]
  constructor
  case episodes => rfl
  case chan =>
    rw [chan_setChan_same]
    exact congrArg (fun y : ChannelState => { y with listed := true }) (chan_setChan_same s _ _)
  case others => exact fun c hc => (chan_setChan_other _ _ hc).trans (chan_setChan_other s _ hc)
  case keeps => rwa [ht, collectEvent_listed (s := s.setChan v.chan _) hd _ hn] at hk

/-- The new episode of a split before its first event. -/
def continuation (site : SiteEntry) (number : Nat) (s : State) : Episode :=
  newEpisode site (number + 1) s.clock.seconds { EpisodeFlags.clear with continuation := true }

/-- A split of an episode with one open event goes through two parts: `q` has filed the old episode, and `r` has opened the event
again in the new one. -/
structure SplitThrough (number : Nat) (e : Episode) (site : SiteEntry) (v : EventEntry) (l : Lane) (s q r : State) : Prop where
  filed : SplitFiled (e.countOut v (s.chan v.chan).listed) v.chan s q
  reopened : Reopened (carriedEvent v l) (s.chan v.chan).state (continuation site number q)
    (installContinuation site number q) r
  told : splitEpisode number s = raise 0 (episodeSplit e.number site.nextEpisode r)

theorem splitEpisode_through {s : State} {e : Episode} {site : SiteEntry} {v : EventEntry} {l : Lane} (number : Nat)
    (he : s.episodes.current = some e) (ho : s.openSite = some site) (hc : e.openChannels = [v.chan])
    (hv : (s.chan v.chan).event = some v) (hl : (s.slot v.chan.slot).lane = some l) :
    ∃ q r, SplitThrough number e site v l s q r := by
  have hq := splitFiled_of_open hv he
  refine ⟨_, _, hq, reopen_reopened _ ?lane rfl (by decide : (0 : Nat) < 32), splitEpisode_one number he ho hc hv⟩
  case lane =>
    rw [← hl]
    exact congrArg (fun q : Quad PodSlot => (q.get v.chan.slot).lane) (hq.keeps .slots (by decide))

section Through

variable {number : Nat} {e : Episode} {site : SiteEntry} {v : EventEntry} {l : Lane} {s q r : State}
  (h : SplitThrough number e site v l s q r)
include h

theorem SplitThrough.toldCaptures : ToldCaptures r (splitEpisode number s) := by
  rw [h.told]
  exact toldCaptures_split _ _ _

theorem SplitThrough.chan_eq (c : Chan) : (splitEpisode number s).chan c = r.chan c := by
  rw [h.told]
  exact chan_of_keeps ((does_episodeSplit _ _ r).andThen (rs := closeParts) (does_raise 0 _)).keeps c

/-- The channel of the event that goes on stands as it stood, its event the carried one (log 66). -/
theorem SplitThrough.channel :
    (splitEpisode number s).chan v.chan =
      { s.chan v.chan with event := some (carriedEvent v l), listed := true } := by
  have hi : (installContinuation site number q).chan v.chan = (s.chan v.chan).toNormal :=
    (chan_of_keeps (does_installContinuation site number q).keeps v.chan).trans h.filed.chan
  calc (splitEpisode number s).chan v.chan
    _ = r.chan v.chan := h.chan_eq v.chan
    _ = { (installContinuation site number q).chan v.chan with
          state := (s.chan v.chan).state, event := some (carriedEvent v l), listed := true } := h.reopened.chan
    _ = { s.chan v.chan with event := some (carriedEvent v l), listed := true } := by rw [hi]; rfl

theorem SplitThrough.others {c : Chan} (hc : c ≠ v.chan) : (splitEpisode number s).chan c = s.chan c :=
  calc (splitEpisode number s).chan c
    _ = r.chan c := h.chan_eq c
    _ = (installContinuation site number q).chan c := h.reopened.others c hc
    _ = q.chan c := chan_of_keeps (does_installContinuation site number q).keeps c
    _ = s.chan c := h.filed.others c hc

/-- The new episode is numbered from its site, whose number moves on (R128). -/
theorem SplitThrough.nextEpisode (hs : s.site site.id = some site) :
    (splitEpisode number s).nextEpisodeOf site.id = some (nextSiteNumber site.nextEpisode) := by
  have hq : q.site site.id = some site := (site_of_keeps h.filed.keeps site.id).trans hs
  have hr : r.nextEpisodeOf site.id = (installContinuation site number q).nextEpisodeOf site.id :=
    congrArg _ (site_of_keeps h.reopened.keeps site.id)
  rw [h.toldCaptures.numbers, hr]
  exact installEpisode_number hq _ _

/-- A split raises EPISODE_OPEN and EPISODE_CLOSE (R56). -/
theorem SplitThrough.raised :
    hasSource (splitEpisode number s).notices.requests 0 = true ∧
      hasSource (splitEpisode number s).notices.requests 1 = true := by
  have hn : (episodeSplit e.number site.nextEpisode r).notices = q.notices :=
    calc (episodeSplit e.number site.nextEpisode r).notices
      _ = r.notices := (does_episodeSplit _ _ r).keeps.notices
      _ = (installContinuation site number q).notices := h.reopened.keeps.notices
      _ = q.notices := (does_installContinuation site number q).keeps.notices
  rw [h.told]
  refine ⟨hasSource_of_raised (raise_raised 0 _), ?_⟩
  rw [hasSource_raise_other (by decide), hn]
  exact h.filed.raised

/-- The outbox and its counter are those that filing the old episode leaves (R54). -/
theorem SplitThrough.outbox :
    let u := outboxEpisode (buildEpisode (e.countOut v (s.chan v.chan).listed).continued) s.episodes
    (splitEpisode number s).episodes.outbox = u.outbox ∧ (splitEpisode number s).episodes.lost = u.lost := by
  have houtbox : r.episodes.outbox = q.episodes.outbox := congrArg (fun u => u.outbox) h.reopened.episodes
  have hlost : r.episodes.lost = q.episodes.lost := congrArg (fun u => u.lost) h.reopened.episodes
  rw [h.toldCaptures.outbox, h.toldCaptures.lost, houtbox, hlost, h.filed.episodes]
  exact ⟨rfl, rfl⟩

/-- The new episode holds the carried event alone (R56). -/
theorem SplitThrough.current : ∃ d, (splitEpisode number s).episodes.current = some d ∧
    d.own = { continuation site number q with events := [(carriedEvent v l, true)], openChannels := [v.chan] } := by
  obtain ⟨d, hd, hown⟩ := h.toldCaptures.current (congrArg EpisodeUnit.current h.reopened.episodes)
  exact ⟨d, hd, hown⟩

end Through

/-- The events in the record of an episode whose listed open event of a channel has been counted out (R47, R52). -/
theorem buildEpisode_countOut (e : Episode) (v : EventEntry) :
    (buildEpisode (e.countOut v true).continued).events =
      e.events.map (fun x => if x.2 = true ∧ x.1.chan = v.chan then v else x.1) := by
  change ((e.events.map _).map _) = _
  rw [List.map_map]
  refine List.map_congr_left (fun x _ => ?_)
  exact apply_ite Prod.fst _ _ _

end Sys2Proof.Machine
end

section
/-! The statements about half-cycle RMS and episodes (03), settled. -/

namespace Sys2Proof.Machine

open Sys2Proof

/-- Settles O28, by the case of the event machine that each close falls in. -/
theorem channelsFollowTheirThresholds : Obligations.ChannelsFollowTheirThresholds := by
  refine ⟨?ungapped, ?staged, ?gapped, ?unwatched⟩
  case ungapped =>
    intro ch k r c hs hw hn t o d ended goesOn
    obtain ⟨hforce, hheld⟩ := Prod.mk.inj (takeChannel_rating ch true k (some r) c)
    rw [hs] at hforce
    refine ⟨hheld, hforce, fun he => ⟨fun st kind hp => ?opens, fun hi hts htw => ?quiet⟩, fun e he =>
      ⟨fun hst => ?dip, fun hst => ?interrupted, fun hst => ?swell⟩⟩
    case opens =>
      have ho : o = _ := takeChannel_runs hs (.inl ⟨rfl, hw⟩) (runMachine_opens he (judgeNormal_of_passes hp))
      refine ⟨congrArg (fun o => o.1.state) ho, _, congrArg (fun o => o.2.1) ho, congrArg (fun o => o.1.event) ho, ?_⟩
      exact congrArg (fun n => EventEntry.mk ch kind _ _ _ r n _) (permilleOf_eq_min r hn)
    case quiet =>
      have ho : o = _ := takeChannel_runs hs (.inl ⟨rfl, hw⟩) (runMachine_quiet he (judgeNormal_quiet hi hts htw))
      exact ⟨congrArg (fun o => o.1.state) ho, (congrArg (fun o => o.1.event) ho).trans he⟩
    case dip =>
      have hj := judgeEvent_dip hst t r
      refine ⟨fun hi => ?_, fun hi hts => ?_, fun hi hts => ?_⟩
      · exact takeChannel_goesOn hs hw he ch k (hj.trans (if_pos hi)) nofun
      · rw [if_neg (Nat.not_lt.mpr hi), if_pos hts] at hj
        exact takeChannel_ended hs hw he ch k hj
      · rw [if_neg (Nat.not_lt.mpr hi), if_neg (Nat.not_le.mpr hts)] at hj
        exact takeChannel_goesOn hs hw he ch k hj nofun
    case interrupted =>
      have hj := judgeEvent_interrupted hst t r
      refine ⟨fun hts => ?_, fun hts hti => ?_, fun hts hti => ?_⟩
      · exact takeChannel_ended hs hw he ch k (hj.trans (if_pos hts))
      · rw [if_neg (Nat.not_le.mpr hts), if_pos hti] at hj
        exact takeChannel_goesOn hs hw he ch k hj nofun
      · rw [if_neg (Nat.not_le.mpr hts), if_neg (Nat.not_le.mpr hti)] at hj
        exact takeChannel_goesOn hs hw he ch k hj nofun
    case swell =>
      have hj := judgeEvent_swell hst t r
      refine ⟨fun htw => ?_, fun htw => ?_⟩
      · exact takeChannel_ended hs hw he ch k (hj.trans (if_pos htw))
      · exact takeChannel_goesOn hs hw he ch k (hj.trans (if_neg (Nat.not_le.mpr htw))) nofun
  case staged =>
    intro ch live k code c t hs flagged o
    have ho : o = ((judgeClose ch live k code _).1, (judgeClose ch live k code _).2, false) :=
      takeChannel_of_applied (applyStaged_none rfl) ch live k code
    rw [takeChannel_of_applied (applyStaged_some hs), ho]
  case gapped =>
    refine fun ch live k c hs => ⟨fun hg => by rw [rmsCodes, hg]; rfl, takeChannel_gap_normal hs, fun e he hw => ?_⟩
    dsimp only
    rw [takeChannel_runs hs (.inr (by rw [he]; rfl)) (runMachine_gap_event he hw)]
    exact ⟨rfl, _, rfl, countClose_counted k _ none e.kind e⟩
  case unwatched =>
    refine fun ch live k code c hs => ⟨fun e he hw => ?_, takeChannel_idle hs⟩
    dsimp only
    rw [takeChannel_runs hs (.inr (by rw [he]; rfl)) (runMachine_unwatched he hw)]
    exact ⟨rfl, rfl, _, rfl, countClose_unwatched k _ code e⟩

/-- Settles O29: an opened episode by what the capture unit leaves of it (`ToldCaptures`), a closed one by the record of
`buildEpisode`, and a split one by the parts that the split goes through. -/
theorem episodesOpenAndCloseWithTheirEvents : Obligations.EpisodesOpenAndCloseWithTheirEvents := by
  refine ⟨?opens, ?closes, ?due, ?split⟩
  case opens =>
    intro number evs site s hr ho hc _ hl
    obtain ⟨d, hd, hown⟩ := openEpisode_current ho number (Nat.le_trans hl (by decide))
    have hf {α : Type} (f : Episode → α) := congrArg f hown
    refine ⟨d, hd, hf Episode.site, hf Episode.number, hf Episode.firstBoundary, hf Episode.seconds, hf Episode.events,
      hf Episode.openChannels, hf Episode.dropped, openEpisode_nextEpisode ho (site_of_openSite hr ho) number evs, ?_⟩
    rw [openEpisode_collected ho]
    exact hasSource_of_raised (raise_raised 0 _)
  case closes =>
    intro e s he hne
    obtain ⟨hu, hn⟩ := closeEpisode_closed he
    rw [hu]
    refine ⟨rfl, hn, fun hfull => ?_, fun hroom => ?_⟩
    · rw [outboxEpisode_full _ hfull]
      exact ⟨rfl, rfl⟩
    · rw [outboxEpisode_room _ hroom]
      obtain ⟨hmem, hmin⟩ := List.min?_eq_some_iff.mp (buildEpisode_start hne)
      obtain ⟨hmem', hmax⟩ := List.max?_eq_some_iff.mp (buildEpisode_stop hne)
      obtain ⟨x, hx, hstart⟩ := List.mem_map.mp hmem
      obtain ⟨y, hy, hstop⟩ := List.mem_map.mp hmem'
      obtain ⟨w, ⟨pre, post, hsplit, hpre, hpost⟩, hworst, hpermille⟩ := buildEpisode_worst hne
      exact ⟨buildEpisode e, rfl, rfl, rfl, rfl,
        fun z hz => ⟨hmin _ (List.mem_map_of_mem hz), hmax _ (List.mem_map_of_mem hz)⟩,
        ⟨x, hx, hstart.symm⟩, ⟨y, hy, hstop.symm⟩, pre, w, post, hsplit, hworst, hpermille, hpre, hpost⟩
  case due =>
    refine fun number e s he => ⟨fun h => ?_, fun h => ?_⟩
    · simp only [splitIfDue, he, if_neg (Nat.not_le.mpr h)]
    · simp only [splitIfDue, he, if_pos h]
  case split =>
    rintro number e site ch v l s hr he ho hc hv rfl hlisted hlane t carried
    obtain ⟨q, r, h⟩ := splitEpisode_through number he ho hc hv hlane
    obtain ⟨d, hd, hown⟩ := h.current
    have hf {α : Type} (f : Episode → α) := congrArg f hown
    obtain ⟨houtbox, hlost⟩ := h.outbox
    rw [hlisted] at houtbox hlost
    refine ⟨⟨d, hd, ?_, hf Episode.events, hf Episode.openChannels, hf Episode.dropped, ?_, ?_⟩, h.channel,
      fun c => h.others, h.nextEpisode (site_of_openSite hr ho), h.raised.1, h.raised.2, fun hroom => ?_, fun hfull => ?_⟩
    · exact Prod.ext (hf Episode.site) (Prod.ext (hf Episode.number) (hf Episode.firstBoundary))
    · exact hf (fun d => d.flags.continuation)
    · exact hf (fun d => d.flags.continues)
    · rw [outboxEpisode_room _ hroom] at houtbox
      exact ⟨_, houtbox, rfl, rfl, buildEpisode_countOut e v⟩
    · rw [outboxEpisode_full _ hfull] at houtbox hlost
      exact ⟨houtbox, hlost⟩

end Sys2Proof.Machine
end

section
/-! SUPPORT. The staging buffer of a capture (R64, R72): what a flush, a set placed and an instant that joins the held gap run
leave of a capture, and which of its fields the buffer has no part in. -/

namespace Sys2Proof.Machine

open Sys2Proof

/-! ### Sizes and counts -/

theorem itemsSize_append (a b : List StagedItem) : itemsSize (a ++ b) = itemsSize a + itemsSize b := by
  simp only [itemsSize, List.map_append, List.sum_append]

/-- Bytes are free in staging where it holds them beside what stands in it and in the burst in progress. -/
theorem le_room_iff {c : CaptureSlot} {busy n : Nat} (h : 0 < n) :
    n ≤ c.room busy ↔ itemsSize c.staging + busy + n ≤ 2048 := by
  simp only [CaptureSlot.room]
  omega

theorem instants_add (a b : Counts) : (a.add b).instants = a.instants + b.instants := by
  simp only [Counts.add, Counts.instants]
  omega

/-- What one instant or entry is counted as takes up one instant at most: a trend entry none (R78). -/
theorem instants_oneOf_le (k : CountKind) : (oneOf k).instants ≤ 1 := by cases k <;> decide

/-! ### Fields that the buffer has no part in -/

/-- What a capture holds apart from its staging buffer and its held run. -/
def CaptureSlot.bookkeeping (c : CaptureSlot) : CaptureSlot :=
  { c with staging := [], held := Counts.zero, runDue := false, waiting := [], behind := [] }

/-- A field of the bookkeeping. -/
theorem CaptureSlot.field_of_bookkeeping {α : Type} (f : CaptureSlot → α) {c d : CaptureSlot}
    (h : c.bookkeeping = d.bookkeeping) (hf : ∀ x, f x.bookkeeping = f x := by exact fun _ => rfl) : f c = f d := by
  rw [← hf c, h, hf d]

/-! ### The held gap run placed -/

/-- The held gap run as it stands in staging once it is placed: nothing of an empty run (R64). -/
def CaptureSlot.runItems (c : CaptureSlot) : List StagedItem :=
  if c.heldRun = 0 then [] else [⟨.gapRun c.heldRun, c.held⟩]

theorem itemsSize_runItems (c : CaptureSlot) : itemsSize c.runItems = if c.heldRun = 0 then 0 else 4 := by
  unfold CaptureSlot.runItems
  split <;> rfl

theorem placeRun_of_empty {c : CaptureSlot} (h : c.heldRun = 0) : c.placeRun = { c with runDue := false } := if_pos h

theorem placeRun_of_held {c : CaptureSlot} (h : c.heldRun ≠ 0) :
    c.placeRun =
      { c with
        staging := c.staging ++ [⟨.gapRun c.heldRun, c.held⟩], held := Counts.zero, runDue := false
        waiting := c.behind, behind := [] } := if_neg h

theorem placeRun_staging (c : CaptureSlot) : c.placeRun.staging = c.staging ++ c.runItems := by
  unfold CaptureSlot.runItems
  split
  · next h => rw [placeRun_of_empty h, List.append_nil]
  · next h => rw [placeRun_of_held h]

theorem placeRun_heldRun (c : CaptureSlot) : c.placeRun.heldRun = 0 := by
  by_cases h : c.heldRun = 0
  · rw [placeRun_of_empty h]; exact h
  · rw [placeRun_of_held h]; rfl

/-- With no header behind it the run, once placed, leaves none ahead of the next entry. -/
theorem placeRun_unblocked {c : CaptureSlot} (hw : c.waiting = []) (hb : c.behind = []) :
    c.placeRun.waiting = [] ∧ c.placeRun.behind = [] := by
  by_cases h : c.heldRun = 0
  · rw [placeRun_of_empty h]; exact ⟨hw, hb⟩
  · rw [placeRun_of_held h]; exact ⟨hb, rfl⟩

theorem placeRun_of_held_unblocked {c : CaptureSlot} (h : c.heldRun ≠ 0) (hw : c.waiting = []) (hb : c.behind = []) :
    c.placeRun =
      { c with
        staging := c.staging ++ [⟨.gapRun c.heldRun, c.held⟩], held := Counts.zero, runDue := false } := by
  rw [placeRun_of_held h, hb, hw]

/-- A run is placed once. -/
theorem placeRun_placeRun (c : CaptureSlot) : c.placeRun.placeRun = c.placeRun := by
  rw [placeRun_of_empty (placeRun_heldRun c)]
  by_cases h : c.heldRun = 0
  · rw [placeRun_of_empty h]
  · rw [placeRun_of_held h]

theorem placeRun_bookkeeping (c : CaptureSlot) : c.placeRun.bookkeeping = c.bookkeeping := by
  by_cases h : c.heldRun = 0
  · rw [placeRun_of_empty h]; rfl
  · rw [placeRun_of_held h]; rfl

/-- A set placed stands in staging behind the run that it closes, and is counted (R67). -/
theorem putSet_placed (c : CaptureSlot) (k : CountKind) (x : SampleSet) :
    (c.putSet k x).staging = c.staging ++ c.runItems ++ [⟨.set x, oneOf k⟩] ∧ (c.putSet k x).heldRun = 0 ∧
      (c.putSet k x).counts = c.counts.add (oneOf k) ∧ (c.putSet k x).flags = c.flags ∧
      (c.putSet k x).phase = c.phase := by
  have hkept := placeRun_bookkeeping c
  exact ⟨congrArg (· ++ _) (placeRun_staging c), placeRun_heldRun c,
    congrArg (Counts.add · (oneOf k)) (CaptureSlot.field_of_bookkeeping CaptureSlot.counts hkept),
    (CaptureSlot.field_of_bookkeeping CaptureSlot.flags hkept :),
    (CaptureSlot.field_of_bookkeeping CaptureSlot.phase hkept :)⟩

/-! ### What a flush moves -/

theorem flushHeaders_nil {c : CaptureSlot} (busy : Nat) (h : c.waiting = []) : flushHeaders busy [] c = c := by
  rw [flushHeaders, ← h]

theorem flush_of_noHeaders {c : CaptureSlot} (busy : Nat) (h : c.waiting = []) :
    c.flush busy =
      if (c.runDue && decide (4 ≤ c.room busy)) = true then flushHeaders busy c.placeRun.waiting c.placeRun else c := by
  rw [CaptureSlot.flush, h, flushHeaders_nil busy h, h]
  rfl

/-- Nothing moves where no header waits and no closed run finds its four bytes. -/
theorem flush_rests {c : CaptureSlot} {busy : Nat} (hw : c.waiting = [])
    (hr : c.runDue = true → 2048 < itemsSize c.staging + busy + 4) : c.flush busy = c := by
  rw [flush_of_noHeaders busy hw, if_neg]
  rw [Bool.and_eq_true, decide_eq_true_eq, le_room_iff (by decide)]
  exact fun h => absurd (hr h.1) (Nat.not_lt.mpr h.2)

/-- A closed run with room is placed, and with no header behind it nothing else moves. -/
theorem flush_places {c : CaptureSlot} {busy : Nat} (hw : c.waiting = []) (hb : c.behind = []) (hd : c.runDue = true)
    (hr : itemsSize c.staging + busy + 4 ≤ 2048) : c.flush busy = c.placeRun := by
  rw [flush_of_noHeaders busy hw, if_pos, (placeRun_unblocked hw hb).1, flushHeaders_nil busy (placeRun_unblocked hw hb).1]
  rw [hd, decide_eq_true ((le_room_iff (by decide)).mpr hr)]
  rfl

/-! ### Sections -/

theorem openSection_of_none {c : CaptureSlot} (h : c.headerDue = none) : c.openSection = c := by
  simp only [CaptureSlot.openSection, h]

/-- A capture with the header that its next entry opens a section with, if it opens one, behind its held run (R64, log 55). -/
def CaptureSlot.openedBehind (c : CaptureSlot) : CaptureSlot :=
  { c with headerDue := none, behind := c.behind ++ c.headerDue.toList }

/-- A section that opens while a run is held has its header behind the run (R64, log 55). -/
theorem openSection_behind {c : CaptureSlot} (h : c.headerDue = none ∨ 0 < c.heldRun) :
    c.openSection = c.openedBehind := by
  unfold CaptureSlot.openedBehind
  cases hd : c.headerDue with
  | none => rw [openSection_of_none hd, Option.toList_none, List.append_nil, ← hd]
  | some k =>
    have hr : c.heldRun ≠ 0 := by
      rcases h with h | h
      · rw [hd] at h; cases h
      · omega
    simp only [CaptureSlot.openSection, hd, if_neg hr, Option.toList_some]

/-! ### An instant taken -/

/-- A run short of 65535 stays as it is (R64). -/
theorem judgeRun_of_short {c : CaptureSlot} (busy : Nat) (h : c.heldRun < 65535) : c.judgeRun busy = c := if_pos h

/-- An instant joins a held run that it leaves short of 65535, and is counted (R64). -/
theorem joinRun_of_short {c : CaptureSlot} (k : CountKind) (busy : Nat) (h : c.heldRun + 1 < 65535) :
    c.joinRun k busy = { c with held := c.held.add (oneOf k), counts := c.counts.add (oneOf k) } := by
  refine judgeRun_of_short busy ?_
  have hk := instants_oneOf_le k
  rw [CaptureSlot.heldRun] at h
  rw [CaptureSlot.heldRun, instants_add]
  omega

/-- An instant of the lane taken by a capture in DURING or POST: a set, or a gap instant. -/
def CaptureSlot.takeAs (c : CaptureSlot) (k : CountKind) (busy : Nat) : Option SampleSet → CaptureSlot
  | some y => c.takeSet k y busy
  | none => c.takeGap k busy

/-- A capture with an instant joined to its held gap run, as the section it opens leaves it; `dropped` says that the instant's
set found no room (R64, R72). -/
def CaptureSlot.joinedBy (c : CaptureSlot) (k : CountKind) (dropped : Bool) : CaptureSlot :=
  { c.openedBehind with
    held := c.held.add (oneOf k), counts := c.counts.add (oneOf k)
    flags := { c.flags with skipped := c.flags.skipped || dropped } }

/-- A gap instant joins the held run, and so does a set that finds fewer than eight bytes free (R64, R72). -/
theorem takeAs_joins {c : CaptureSlot} {k : CountKind} {busy : Nat} {x : Option SampleSet} (hw : c.waiting = [])
    (hs : c.headerDue = none ∨ 0 < c.heldRun) (hd : c.runDue = true → 2048 < itemsSize c.staging + busy + 4)
    (hr : c.heldRun + 1 < 65535) (hx : x = none ∨ 2048 < itemsSize c.staging + busy + 8) :
    c.takeAs k busy x = c.joinedBy k x.isSome := by
  have hflush : c.openSection.flush busy = c.openedBehind := by
    rw [openSection_behind hs]
    exact flush_rests hw hd
  cases x with
  | none =>
    rw [CaptureSlot.takeAs, CaptureSlot.takeGap, hflush]
    refine (joinRun_of_short (c := c.openedBehind) k busy hr).trans ?_
    rw [CaptureSlot.joinedBy, Option.isSome_none, Bool.or_false]
    rfl
  | some y =>
    have hfull : 2048 < itemsSize c.openedBehind.staging + busy + 8 := hx.resolve_left nofun
    have hfits : c.openedBehind.setFits busy = false := by
      rw [CaptureSlot.setFits, Bool.and_eq_false_iff, decide_eq_false_iff_not, le_room_iff (by omega)]
      exact .inr (by omega)
    rw [CaptureSlot.takeAs, CaptureSlot.takeSet, hflush, hfits, if_neg Bool.false_ne_true]
    refine (joinRun_of_short (c := { c.openedBehind with flags := _ }) k busy hr).trans ?_
    rw [CaptureSlot.joinedBy, Option.isSome_some, Bool.or_true]
    rfl

/-- A set fits where its eight bytes are free beside those of the run that it closes, and nothing waits (R64, log 16). -/
theorem setFits_of_room {c : CaptureSlot} {busy : Nat} (hw : c.waiting = []) (hb : c.behind = [])
    (hr : itemsSize c.staging + busy + 8 + (if c.heldRun = 0 then 0 else 4) ≤ 2048) : c.setFits busy = true := by
  rw [CaptureSlot.setFits, CaptureSlot.unblocked, hw, hb, Bool.and_eq_true, decide_eq_true_eq, le_room_iff (by omega)]
  exact ⟨rfl, by omega⟩

/-- A set that fits is placed behind the held run, also where the run was due already (R67, R69). -/
theorem takeAs_places {c : CaptureSlot} {k : CountKind} {busy : Nat} {y : SampleSet} (hs : c.headerDue = none)
    (hw : c.waiting = []) (hb : c.behind = [])
    (hr : itemsSize c.staging + busy + 8 + (if c.heldRun = 0 then 0 else 4) ≤ 2048) :
    c.takeAs k busy (some y) = c.putSet k y := by
  rw [CaptureSlot.takeAs, CaptureSlot.takeSet, openSection_of_none hs]
  cases hd : c.runDue with
  | false =>
    rw [flush_rests hw (by rw [hd]; exact nofun), setFits_of_room hw hb hr]
    exact if_pos rfl
  | true =>
    obtain ⟨hw', hb'⟩ := placeRun_unblocked hw hb
    have hsize := itemsSize_runItems c
    have hfits : c.placeRun.setFits busy = true := by
      refine setFits_of_room hw' hb' ?_
      rw [placeRun_staging, itemsSize_append, placeRun_heldRun]
      simp only [if_true]
      omega
    rw [flush_places hw hb hd (by omega), hfits]
    simp only [if_true, CaptureSlot.putSet, placeRun_placeRun]

/-! ### What a flush has no part in -/

theorem flushHeaders_bookkeeping (busy : Nat) (l : List SectionKind) (c : CaptureSlot) :
    (flushHeaders busy l c).bookkeeping = c.bookkeeping := by
  induction l generalizing c with
  | nil => rfl
  | cons k rest ih =>
    unfold flushHeaders
    split
    · exact ih _
    · rfl

theorem flush_bookkeeping (busy : Nat) (c : CaptureSlot) : (c.flush busy).bookkeeping = c.bookkeeping := by
  unfold CaptureSlot.flush
  dsimp only
  split
  · rw [flushHeaders_bookkeeping, placeRun_bookkeeping, flushHeaders_bookkeeping]
  · exact flushHeaders_bookkeeping _ _ _

/-- A run closed moves nothing but what stands in staging and what waits for it (R64). -/
theorem closeRun_bookkeeping (busy : Nat) (c : CaptureSlot) : (c.closeRun busy).bookkeeping = c.bookkeeping :=
  flush_bookkeeping busy _

end Sys2Proof.Machine
end

section
/-! SUPPORT. What a capture does as its ring is read and written, as its held run is placed, as an instant comes and as an
episode is joined (R62 to R72). -/

namespace Sys2Proof.Machine

open Sys2Proof

/-! ### PRE -/

/-- PRE that has no instant to stop at goes on while the next instant it takes is below the lane's (R66). -/
theorem preDone_of_behind {c : CaptureSlot} {n position : Nat} (hn : c.preNext = some n) (hl : c.preLimit = none)
    (h : n < position) : c.preDone position = false := by
  simp [CaptureSlot.preDone, hn, hl, h]

theorem settlePre_goesOn {c : CaptureSlot} {position : Nat} (busy : Nat) (h : c.preDone position = false) :
    c.settlePre position busy = c := by
  rw [CaptureSlot.settlePre, h, if_neg (fun h => Bool.false_ne_true h.2)]

/-- The next instant of PRE once one more is counted, which is no trend entry. -/
theorem preNext_counted {c d : CaptureSlot} {n : Nat} {k : CountKind} (h : c.preNext = some n) (hf : d.first = c.first)
    (hc : d.counts = c.counts.add (oneOf k)) (hk : (oneOf k).instants = 1) : d.preNext = some (n + 1) := by
  obtain ⟨m, hm, rfl⟩ := Option.map_eq_some_iff.mp h
  rw [CaptureSlot.preNext, hf, hm, hc, instants_add, hk]
  rfl

theorem instants_preKind (c : CaptureSlot) : (oneOf c.preKind).instants = 1 := by
  unfold CaptureSlot.preKind
  split <;> rfl

/-- A set placed with no run held or due (R66, R67). -/
theorem putSet_of_noRun {c : CaptureSlot} (k : CountKind) (x : SampleSet) (hh : c.heldRun = 0) (hr : c.runDue = false) :
    c.putSet k x = { c with staging := c.staging ++ [⟨.set x, oneOf k⟩], counts := c.counts.add (oneOf k) } := by
  have hrun : c.placeRun = c := by rw [placeRun_of_empty hh, ← hr]
  rw [CaptureSlot.putSet, hrun]

/-- PRE takes the set at its read position where nothing waits ahead of it and its eight bytes are free, and goes on (R66). -/
theorem readPre_places {c : CaptureSlot} {n position busy : Nat} {x : SampleSet} (hp : c.phase = .pre)
    (hn : c.preNext = some n) (hpos : n + 1 < position) (hl : c.preLimit = none)
    (hx : c.ring[c.readPos]? = some (some x)) (hd : c.headerDue = none) (hw : c.waiting = []) (hb : c.behind = [])
    (hh : c.heldRun = 0) (hr : c.runDue = false) (hroom : itemsSize c.staging + busy + 8 ≤ 2048) :
    c.readPre position busy =
      { c.advanceRead with
        staging := c.staging ++ [⟨.set x, oneOf c.preKind⟩], counts := c.counts.add (oneOf c.preKind) } := by
  have hflush : c.openSection.flush busy = c := by
    rw [openSection_of_none hd]
    exact flush_rests hw (by rw [hr]; exact nofun)
  have hfits : c.setFits busy = true := setFits_of_room hw hb (by rw [if_pos hh]; exact hroom)
  have hput := putSet_of_noRun (c := c.advanceRead) c.preKind x hh hr
  have hnext : (c.advanceRead.putSet c.preKind x).preNext = some (n + 1) := by
    rw [hput]
    exact preNext_counted hn rfl rfl (instants_preKind c)
  rw [CaptureSlot.readPre, if_pos hp, preDone_of_behind hn hl (by omega), if_neg Bool.false_ne_true, hx]
  dsimp only
  rw [hflush, hfits, if_pos rfl, settlePre_goesOn busy (preDone_of_behind hnext (by rw [hput]; exact hl) hpos), hput]
  rfl

/-! ### The held gap run -/

/-- A closed run without its four bytes stays held (R64). -/
theorem placeHeld_rests {c : CaptureSlot} {busy : Nat} (hw : c.waiting = []) (hr : c.heldRun < 65535)
    (hroom : 2048 < itemsSize c.staging + busy + 4) : c.placeHeld busy = c := by
  rw [CaptureSlot.placeHeld, flush_rests hw (fun _ => hroom), judgeRun_of_short busy hr, ite_self]

/-- A closed run is placed once its four bytes are free (R64). -/
theorem placeHeld_places {c : CaptureSlot} {busy : Nat} (hw : c.waiting = []) (hb : c.behind = []) (hd : c.runDue = true)
    (hroom : itemsSize c.staging + busy + 4 ≤ 2048) : c.placeHeld busy = c.placeRun := by
  have hr : c.placeRun.heldRun < 65535 := by rw [placeRun_heldRun]; decide
  rw [CaptureSlot.placeHeld, flush_places hw hb hd hroom, judgeRun_of_short busy hr, ite_self]

/-- A run closed by a change of section, without its four bytes, stays held and is due (R64). -/
theorem changeSection_rests {c : CaptureSlot} {busy : Nat} (k : SectionKind) (hw : c.waiting = [])
    (hroom : 2048 < itemsSize c.staging + busy + 4) :
    c.changeSection k busy = { c with runDue := decide (c.heldRun ≠ 0), headerDue := some k } := by
  rw [CaptureSlot.changeSection, CaptureSlot.closeRun,
    flush_rests (c := { c with runDue := decide (c.heldRun ≠ 0) }) hw (fun _ => hroom)]

/-! ### An instant of the lane -/

/-- A capture that takes instants in DURING or POST, and what it counts them as (R67, R69). -/
def CaptureSlot.Takes (c : CaptureSlot) (k : CountKind) : Prop :=
  c.phase = .during ∧ k = .during ∨ c.phase = .post ∧ k = .post

/-- A capture in DURING or POST that has its first instant takes an instant behind the ring's write (R62, R67, R69). -/
theorem takeInstant_takes {c : CaptureSlot} {k : CountKind} {m : Nat} (hk : c.Takes k) (hl : c.flags.lean = false)
    (hf : c.first = some m) (n : Nat) (x : Option SampleSet) (busy : Nat) :
    c.takeInstant n x busy = (c.writeRing x).takeAs k busy x := by
  have hpre : c.phase ≠ .pre := by
    rcases hk with ⟨h, _⟩ | ⟨h, _⟩ <;> rw [h] <;> exact nofun
  have hlose : c.losePre n busy = c := if_neg (fun h => hpre h.1)
  have hfirst : c.noteFirst n = c := if_neg (by rw [hf]; exact fun h => Bool.false_ne_true h.2.2)
  have hlean : (c.writeRing x).flags.lean = false := hl
  unfold CaptureSlot.takeInstant
  dsimp only
  rw [hlose, hfirst, hlean, if_neg Bool.false_ne_true]
  rcases hk with ⟨hp, rfl⟩ | ⟨hp, rfl⟩
  · rw [show (c.writeRing x).phase = .during from hp]
    cases x <;> rfl
  · rw [show (c.writeRing x).phase = .post from hp]
    cases x <;> rfl

/-! ### The ring -/

/-- The ring's entries from the oldest to the newest (R62). -/
def CaptureSlot.ringInOrder (c : CaptureSlot) : List (Option SampleSet) :=
  c.ring.drop c.oldest ++ c.ring.take c.oldest

theorem place_lt {c : CaptureSlot} (p : Nat) (h : 0 < c.ringSize) : c.place p < c.ringSize := by
  unfold CaptureSlot.place
  split <;> assumption

/-- While the ring fills, an instant joins its end (R62). -/
theorem writeRing_fills {c : CaptureSlot} (x : Option SampleSet) (hlen : c.ring.length < c.ringSize)
    (hw : c.ringWrite = c.ring.length) :
    (c.writeRing x).ring = c.ring ++ [x] ∧ (c.writeRing x).ringInOrder = c.ringInOrder ++ [x] := by
  have hring : (c.writeRing x).ring = c.ring ++ [x] := if_pos hlen
  have hc : c.oldest = 0 := if_pos hlen
  have hd : (c.writeRing x).oldest = 0 := by
    by_cases hfull : c.ring.length + 1 < c.ringSize
    · exact if_pos (by rw [hring, List.length_append]; exact hfull)
    · refine (if_neg (by rw [hring, List.length_append]; exact hfull)).trans ?_
      exact if_neg (by rw [hw]; exact hfull)
  rw [CaptureSlot.ringInOrder, CaptureSlot.ringInOrder, hd, hc, hring]
  simp

/-- In a full ring an instant takes the place of the oldest (R62). -/
theorem writeRing_replaces {c : CaptureSlot} (x : Option SampleSet) (hlen : c.ring.length = c.ringSize)
    (hw : c.ringWrite < c.ringSize) :
    (c.writeRing x).ring = c.ring.set c.ringWrite x ∧
      (c.writeRing x).ringInOrder = (c.ringInOrder ++ [x]).drop 1 := by
  have hring : (c.writeRing x).ring = c.ring.set c.ringWrite x := if_neg (by omega)
  have hc : c.oldest = c.ringWrite := if_neg (by omega)
  have hd : (c.writeRing x).oldest = c.place c.ringWrite :=
    if_neg (by rw [hring, List.length_set]; exact Nat.not_lt.mpr (Nat.le_of_eq hlen.symm))
  refine ⟨hring, ?_⟩
  obtain ⟨pre, old, post, hsplit, hpre⟩ : ∃ pre old post, c.ring = pre ++ old :: post ∧ c.ringWrite = pre.length :=
    ⟨c.ring.take c.ringWrite, c.ring[c.ringWrite], c.ring.drop (c.ringWrite + 1), by simp, by simp; omega⟩
  rw [CaptureSlot.ringInOrder, CaptureSlot.ringInOrder, hd, hc, hring, CaptureSlot.place, ← hlen, hsplit, hpre]
  cases post with
  | nil => simp
  | cons y rest =>
    rw [if_pos (by simp)]
    simp [List.drop_append, List.take_append, List.drop_of_length_le, List.take_of_length_le]

/-! ### An episode joined -/

/-- What joining an episode leaves of a capture that settles, whatever its phase (R70). -/
theorem joined_fields (c : CaptureSlot) (number busy : Nat) :
    (c.joined number busy).episodes = c.episodes ++ [number] ∧ (c.joined number busy).remaining = 0 ∧
      (c.joined number busy).flags = { c.flags with joined := true } := by
  have hsection (d : CaptureSlot) (k : SectionKind) : ((d.changeSection k busy).episodes,
      (d.changeSection k busy).remaining, (d.changeSection k busy).flags) = (d.episodes, d.remaining, d.flags) :=
    (CaptureSlot.field_of_bookkeeping (fun d => (d.episodes, d.remaining, d.flags)) (closeRun_bookkeeping busy d) :)
  simp only [Prod.mk.injEq] at hsection
  unfold CaptureSlot.joined
  dsimp only
  split
  · exact ⟨rfl, rfl, rfl⟩
  · split
    · exact ⟨rfl, rfl, rfl⟩
    · split
      · exact hsection _ _
      · exact hsection _ _

/-- A capture in PRE that joins an episode stays there (R70). -/
theorem joined_pre {c : CaptureSlot} (h : c.phase = .pre) (number busy : Nat) :
    (c.joined number busy).phase = .pre ∧ (c.joined number busy).episodesClosed = false := by
  simp only [CaptureSlot.joined, h, and_self]

/-- A capture in POST that joins an episode goes on in DURING or TREND, with a new section unless it is LEAN (R70). -/
theorem joined_post {c : CaptureSlot} (h : c.phase = .post) (number busy : Nat) :
    ((c.joined number busy).phase, (c.joined number busy).headerDue) =
      if c.flags.lean then (.trend, c.headerDue)
      else if c.halfCycles < 128 then (.during, some .waveform)
      else (.trend, some .trend) := by
  have hsection (d : CaptureSlot) (k : SectionKind) :
      ((d.changeSection k busy).phase, (d.changeSection k busy).headerDue) = (d.phase, some k) :=
    Prod.ext (CaptureSlot.field_of_bookkeeping CaptureSlot.phase (closeRun_bookkeeping busy d) :) rfl
  simp only [CaptureSlot.joined, h]
  split
  · rfl
  · split
    · exact hsection _ _
    · exact hsection _ _

/-- A capture that enters CLOSING keeps its list of episodes (R70, R75). -/
theorem enterClosing_episodes (c : CaptureSlot) (busy : Nat) : (c.enterClosing busy).episodes = c.episodes :=
  (CaptureSlot.field_of_bookkeeping CaptureSlot.episodes (closeRun_bookkeeping busy c) :)

end Sys2Proof.Machine
end

section
/-! SUPPORT. While the port is taken: the rows of the capture unit, and a LANE_INSTANT of a lane that the tracker does not
follow (R15, R64, R66). -/

namespace Sys2Proof.Machine

open Sys2Proof

/-! ### One capture slot replaced -/

theorem cap_setCap_same (s : State) (i : Slot) (c : CaptureSlot) : (s.setCap i c).cap i = c :=
  Quad.get_set_same _ _ _

theorem cap_setCap_other (s : State) {i j : Slot} (c : CaptureSlot) (h : j ≠ i) : (s.setCap i c).cap j = s.cap j :=
  Quad.get_set_other _ _ h

theorem setCap_cap (s : State) (i : Slot) : s.setCap i (s.cap i) = s := by
  rw [State.setCap, State.cap, Quad.set_get]
  rfl

theorem cap_of_keeps {ps : List Part} {s t : State} (h : Keeps ps s t) (i : Slot) (hc : .capture ∉ ps := by decide) :
    t.cap i = s.cap i := by
  have capture : t.capture = s.capture := h .capture hc
  rw [State.cap, State.cap, capture]

/-- With the port taken no burst begins (R113). -/
theorem arbitrate_of_taken {s : State} (h : s.store.holder ≠ .none) : arbitrate s = s := if_neg h

/-! ### CAPTURE_PRE_READ and HELD_GAP_RUN_PLACE -/

theorem capturePreRead_setCap {i : Slot} {l : Lane} {s : State} (hl : (s.slot i).lane = some l)
    (hp : s.store.holder ≠ .none) :
    exec (.capturePreRead i) s = .next (s.setCap i ((s.cap i).readPre l.position (busyBytes s i))) := by
  change Host.Outcome.next (afterCapturePreRead i s) = _
  rw [afterCapturePreRead, hl]
  exact congrArg _ (arbitrate_of_taken hp)

theorem heldGapRunPlace_setCap (i : Slot) {s : State} (hp : s.store.holder ≠ .none) :
    exec (.heldGapRunPlace i) s = .next (s.setCap i ((s.cap i).placeHeld (busyBytes s i))) :=
  congrArg Host.Outcome.next (arbitrate_of_taken hp)

/-! ### An episode joined -/

/-- A capture that settles as an episode opens joins it (R70). -/
theorem episodeOpenedOn_joins {i : Slot} {site number : Nat} {s : State} (ha : s.isActive i = true)
    (he : (s.cap i).entry.enabled = true)
    (hp : (s.cap i).phase = .post ∨
      (s.cap i).phase = .pre ∧ (s.cap i).flags.manual = false ∧ (s.cap i).episodesClosed = true) :
    episodeOpenedOn site number s i = joinEpisode i number s := by
  rcases hp with hp | ⟨hp, hm, hc⟩
  · simp only [episodeOpenedOn, ha, he, hp, Bool.and_self, if_true]
  · simp only [episodeOpenedOn, ha, he, hp, hm, hc, Bool.and_self, if_true, Bool.false_eq_true, if_false]

theorem addCaptureId_cap (id : Nat) (s : State) (i : Slot) : (addCaptureId id s).cap i = s.cap i :=
  cap_of_keeps (does_addCaptureId id s).keeps i

theorem addCaptureId_episodes {id : Nat} {s : State} {e : Episode} (h : s.episodes.current = some e) :
    (addCaptureId id s).episodes =
      { s.episodes with current := some { e with captureIds := e.captureIds ++ [id] } } := by
  simp only [addCaptureId, h, State.setEpisodes_episodes]

/-- A capture whose list of episodes has room joins the episode, which lists the capture (R70). -/
theorem joinEpisode_room {i : Slot} {s : State} {id : Nat} {e : Episode} (number : Nat)
    (hid : (s.cap i).recordId = some id) (he : s.episodes.current = some e) (h : (s.cap i).episodes.length < 4) :
    (joinEpisode i number s).episodes =
        { s.episodes with current := some { e with captureIds := e.captureIds ++ [id] } } ∧
      (joinEpisode i number s).cap i = (s.cap i).joined number (busyBytes s i) := by
  simp only [joinEpisode, if_pos h, hid]
  exact ⟨addCaptureId_episodes he, (addCaptureId_cap _ _ i).trans (cap_setCap_same s i _)⟩

/-- A capture whose list of episodes is full closes with the episode pending (R70). -/
theorem joinEpisode_full {i : Slot} {s : State} (number : Nat) (h : 4 ≤ (s.cap i).episodes.length) :
    joinEpisode i number s =
      s.setCap i { (s.cap i).enterClosing (busyBytes s i) with pending := some number } :=
  if_neg (Nat.not_lt.mpr h)

theorem joinEpisode_cap_other {i j : Slot} (number : Nat) (s : State) (h : j ≠ i) :
    (joinEpisode i number s).cap j = s.cap j := by
  unfold joinEpisode
  dsimp only
  split
  · split
    · exact (addCaptureId_cap _ _ j).trans (cap_setCap_other s _ h)
    · exact cap_setCap_other s _ h
  · exact cap_setCap_other s _ h

/-! ### LANE_INSTANT -/

/-- A lane that discards no frame counts no stray one, and processes its instant (R15 to R18). -/
theorem laneStep_processInstant {i : Slot} {l : Lane} {f : IngressFrame} {rest : List IngressFrame} {s : State}
    (hl : (s.slot i).lane = some l) (hq : (s.slot i).ingress = f :: rest) (ht : f.taken = true)
    (hp : published s i l.position = true) (hg : lagging s l = none) (hc : s.session.stray ≤ 65535) :
    laneStep i s = processInstant i l s := by
  have htake : takeFrames l.position (s.slot i).ingress = ((s.slot i).ingress, 0) := by rw [hq, takeFrames_taken ht]
  have hself : s.setSlot i { s.slot i with ingress := (s.slot i).ingress } = s := setSlot_slot s i
  have hstray : s.setSession { s.session with stray := bumpBy s.session.stray 0 } = s := by
    rw [bumpBy, Nat.add_zero, Nat.min_eq_right hc]
    rfl
  unfold laneStep
  dsimp only
  split
  · next h => rw [hl] at h; cases h
  · next m h =>
    obtain rfl : l = m := Option.some.inj (hl.symm.trans h)
    rw [htake]
    dsimp only
    rw [hself, hstray, hp, hg, hq]
    rfl

theorem stray_le_of_countersOk {s : State} (h : CountersOk s) : s.session.stray ≤ 65535 := by
  refine h _ ?_
  simp [counters]

/-- The tracker takes nothing of a lane that is not the reference's (R24). -/
theorem trackerTakeInstant_unfollowed {i : Slot} {s : State} (h : s.tracker.follows i = false) (n : Nat)
    (x : Option SampleSet) (p : Nat) : trackerTakeInstant i n x p s = (s, none) := by
  unfold trackerTakeInstant
  unfold Tracker.follows at h
  split
  · rfl
  · next c hc =>
    rw [hc] at h
    exact if_neg (by simpa using h)

/-- An instant of such a lane that ends no half-cycle is counted, and nothing more (R15). -/
theorem processInstant_unfollowed {i : Slot} {l : Lane} {s : State} (h : s.tracker.follows i = false)
    (hb : ∀ b ∈ s.tracker.list, b.number = l.lastBoundary + 1 → b.instant ≠ l.position) :
    processInstant i l s = countedInstant i l s := by
  have htrack (p : Nat) : trackerTakeInstant i l.position (setAt i l s) p (countedInstant i l s) =
      (countedInstant i l s, none) := trackerTakeInstant_unfollowed (s := countedInstant i l s) h _ _ _
  unfold processInstant
  dsimp only
  split
  · exact congrArg Prod.fst (htrack _)
  · next b hs =>
    have hclose : boundaryAt (countedInstant i l s) l l.position none = some b :=
      (congrArg (fun t => boundaryAt t.1 l l.position t.2) (htrack _)).symm.trans hs
    obtain ⟨d, hmem, hn, hi⟩ := (boundaryAt_isSome _ _ _ _).mp (Option.isSome_iff_exists.mpr ⟨b, hclose⟩)
    exact absurd hi (hb d ((List.mem_append.mp hmem).resolve_right List.not_mem_nil) hn)

/-- The set, or the gap instant, that the frame at the head of a lane's queue holds for its next instant (R15). -/
theorem setAt_of_head {i : Slot} {l : Lane} {f : IngressFrame} {rest : List IngressFrame} {x : Option SampleSet} {s : State}
    (hq : (s.slot i).ingress = f :: rest)
    (hx : l.position < f.next ∧ x = none ∨ f.next = l.position ∧ f.sets ≠ [] ∧ x = f.sets.head?) :
    setAt i l s = x := by
  rw [setAt, hq]
  rcases hx with ⟨hlt, rfl⟩ | ⟨hn, -, rfl⟩
  · exact takeSet_gap hlt
  · exact takeSet_data hn

/-- A LANE_INSTANT of such a lane, where no half-cycle ends, counts the instant alone. -/
theorem laneInstant_counted {i : Slot} {l : Lane} {f : IngressFrame} {rest : List IngressFrame} {s : State}
    (hl : (s.slot i).lane = some l) (hq : (s.slot i).ingress = f :: rest) (ht : f.taken = true)
    (hp : published s i l.position = true) (hg : lagging s l = none) (hc : CountersOk s)
    (hf : s.tracker.follows i = false) (hh : s.store.holder ≠ .none)
    (hb : ∀ b ∈ s.tracker.list, b.number = l.lastBoundary + 1 → b.instant ≠ l.position) :
    exec (.laneInstant i) s = .next (countedInstant i l s) := by
  have hstep : laneStep i s = countedInstant i l s :=
    (laneStep_processInstant hl hq ht hp hg (stray_le_of_countersOk hc)).trans (processInstant_unfollowed hf hb)
  change Host.Outcome.next (arbitrate (laneStep i s)) = _
  rw [hstep]
  exact congrArg Host.Outcome.next (arbitrate_of_taken (s := countedInstant i l s) hh)

theorem countedInstant_keeps (i : Slot) (l : Lane) (s : State) :
    Keeps [.slots, .capture, .harmonic] s (countedInstant i l s) :=
  (((does_setCap s i _).andThen (rs := [.slots, .capture, .harmonic])
    (does_engine _ _ (harmonicInstant_filed _ _ _))).andThen (does_setSlot _ i _)).keeps

theorem countedInstant_cap_same (i : Slot) (l : Lane) (s : State) :
    (countedInstant i l s).cap i = (s.cap i).takeInstant l.position (setAt i l s) (busyBytes s i) :=
  cap_setCap_same s i _

theorem countedInstant_cap_other {i j : Slot} (l : Lane) (s : State) (h : j ≠ i) :
    (countedInstant i l s).cap j = s.cap j := cap_setCap_other s _ h

end Sys2Proof.Machine
end

section
/-! SUPPORT. A command as it is taken (R195, R197), and the verdicts on CAPTURE_FORCE (R76). -/

namespace Sys2Proof.Machine

open Sys2Proof

/-! ### A command taken -/

theorem takeCommand_of_ready {c : Instr} {s : State} (h : Ready c s) : takeCommand c s = some (taken s) := by
  obtain ⟨hrun, hwait, hnext⟩ := h
  have hidle : commandIdle s = true := by rw [commandIdle, hrun, hwait]; rfl
  rw [takeCommand, if_pos hidle]
  rcases hnext with ⟨hn, hq⟩ | hn
  · have hself : taken s = s := by rw [taken, ← hn]; rfl
    rw [hn, hq, hself]
  · obtain ⟨d, hd, hsent⟩ := Option.map_eq_some_iff.mp hn
    rw [hd]
    exact if_pos hsent

/-- A command taken with its length right is answered with the verdict of its rule (R195, R197). -/
theorem runCommand_answers {c : Instr} {e : Envelope} {judge : State → Verdict} {s : State} {v : Verdict} (code : Byte)
    (h : Ready c s) (hl : e.lengthOk = true) (hv : judge (taken s) = v) :
    runCommand c e code judge s = answer ⟨e.tag, code, v.outcome, v.truncated, v.body⟩ v.state := by
  simp only [runCommand, takeCommand_of_ready h, hl, if_true, hv]

/-- CAPTURE_FORCE taken by a part that is not parked is answered with the verdict on it (R76). -/
theorem captureForce_answers {e : Envelope} {slot n : Nat} {s : State} {v : Verdict} (h : Ready (.captureForce e slot n) s)
    (hl : e.lengthOk = true) (hp : s.parked = false) (hv : judgeCaptureForce slot n (taken s) = v) :
    exec (.captureForce e slot n) s = .next (answer ⟨e.tag, 10, v.outcome, v.truncated, v.body⟩ v.state) := by
  have hawake : ¬(taken s).parked = true := by
    rw [show (taken s).parked = false from hp]
    exact Bool.false_ne_true
  exact congrArg Host.Outcome.next (runCommand_answers 10 h hl ((if_neg hawake).trans hv))

theorem captureForce_parked {e : Envelope} {slot n : Nat} {s : State} (h : Ready (.captureForce e slot n) s)
    (hl : e.lengthOk = true) (hp : s.parked = true) : TurnedAway (.captureForce e slot n) e.tag 10 .parked s :=
  congrArg Host.Outcome.next (runCommand_answers (v := refuse .parked (taken s)) 10 h hl (if_pos hp))

/-! ### The verdicts on CAPTURE_FORCE -/

theorem slotOf_val (i : Slot) : slotOf i.val = some i := dif_pos i.isLt

theorem slotOf_above {slot : Nat} (h : 4 ≤ slot) : slotOf slot = none := dif_neg (Nat.not_lt.mpr h)

theorem judgeCaptureForce_badParam {slot n : Nat} (s : State) (h : 4 ≤ slot ∨ n = 0 ∨ 64 < n) :
    judgeCaptureForce slot n s = refuse .badParam s := by
  unfold judgeCaptureForce
  split
  · rfl
  · next i hi =>
    have hslot : ¬4 ≤ slot := fun h4 => by rw [slotOf_above h4] at hi; cases hi
    exact if_pos (by omega)

section InRange

variable {n : Nat} (hn : 1 ≤ n ∧ n ≤ 64) {s : State}
include hn

theorem judgeCaptureForce_noSite {slot : Nat} (hs : slot < 4) (ho : s.openSite = none) :
    judgeCaptureForce slot n s = refuse .noSite s := by
  simp only [judgeCaptureForce, slotOf, dif_pos hs, hn, and_self, not_true_eq_false, if_false, ho]

variable {i : Slot} {site : SiteEntry} (ho : s.openSite = some site)
include ho

theorem judgeCaptureForce_noPod (ha : s.isActive i = false) : judgeCaptureForce i.val n s = refuse .noPod s := by
  simp only [judgeCaptureForce, slotOf_val, hn, and_self, not_true_eq_false, if_false, ho, ha, Bool.not_false, if_true]

theorem judgeCaptureForce_busy (ha : s.isActive i = true)
    (hb : (s.cap i).phase ≠ .idle ∨ (s.cap i).pending.isSome = true) :
    judgeCaptureForce i.val n s = refuse .busy s := by
  simp only [judgeCaptureForce, slotOf_val, hn, and_self, not_true_eq_false, if_false, ho, ha, Bool.not_true,
    Bool.false_eq_true, if_pos hb]

/-- The verdict once a capture has been asked for: FULL where the store refused its entry (R76, log 34). -/
def forceVerdict : State × Option Nat → Verdict
  | (s, none) => refuse .full s
  | (s, some id) => done (.captureId id) s

theorem judgeCaptureForce_starts (ha : s.isActive i = true) (hp : (s.cap i).phase = .idle)
    (hpend : (s.cap i).pending = none) :
    judgeCaptureForce i.val n s = forceVerdict (startCapture i site.id none (some n) s) := by
  have hb : ¬((s.cap i).phase ≠ .idle ∨ (s.cap i).pending.isSome = true) := by rw [hp, hpend]; simp
  simp only [judgeCaptureForce, slotOf_val, hn, and_self, not_true_eq_false, if_false, ho, ha, Bool.not_true,
    Bool.false_eq_true, if_neg hb]
  rfl

end InRange

end Sys2Proof.Machine
end

section
/-! SUPPORT. A CAPTURE entry as the store creates it, after reclaim if need be (R104, R106, R109), and the capture that starts
with it (R65). -/

namespace Sys2Proof.Machine

open Sys2Proof

/-! ### Requests -/

/-- A request that is allowed at once reclaims nothing (R109). -/
theorem requestAll_of_ok {ok : State → Bool} {s : State} (h : ok s = true) : requestAll ok s = (s, true) := by
  unfold requestAll
  cases s.store.dir.length with
  | zero => rw [request, h]
  | succ n => rw [request, if_pos h]

/-- What reclaim leaves of ids: the next id, and no entry of an id that had none (R109). -/
structure KeepsIds (s t : State) : Prop where
  nextId : t.store.nextId = s.store.nextId
  none : ∀ id, s.entry id = none → t.entry id = none

theorem KeepsIds.refl (s : State) : KeepsIds s s := ⟨rfl, fun _ => id⟩

theorem KeepsIds.trans {s t u : State} (h : KeepsIds s t) (k : KeepsIds t u) : KeepsIds s u :=
  ⟨k.nextId.trans h.nextId, fun id hid => k.none id (h.none id hid)⟩

theorem keepsIds_reclaimStep (e : DirEntry) (s : State) : KeepsIds s (reclaimStep e s) := by
  have h := reclaimStep_reclaimed e s
  refine ⟨h.next, fun id hid => ?_⟩
  rw [State.entry, List.find?_eq_none] at hid ⊢
  rw [h.dir]
  exact fun d hd => hid d (List.mem_filter.mp hd).1

theorem keepsIds_request (ok : State → Bool) (n : Nat) (s : State) : KeepsIds s (request ok n s).1 := by
  induction n generalizing s with
  | zero => exact KeepsIds.refl s
  | succ n ih =>
    unfold request
    split
    · exact KeepsIds.refl s
    · split
      · exact KeepsIds.refl s
      · exact (keepsIds_reclaimStep _ s).trans (ih _)

theorem keepsIds_requestRecord (kept p : Nat) (s : State) : KeepsIds s (requestRecord kept p s).1 := by
  unfold requestRecord
  split
  · have h : KeepsIds s (requestAll placeFree s).1 := keepsIds_request _ _ s
    split
    · next s1 hs => rw [hs] at h; exact h
    · next s1 hs => rw [hs] at h; exact h.trans (keepsIds_request _ _ s1)
  · exact KeepsIds.refl s

/-- With no id left a record is refused before any reclaim (R104, log 48). -/
theorem requestRecord_of_noId (kept p : Nat) {s : State} (h : idLeft s = false) : requestRecord kept p s = (s, false) :=
  if_neg (by rw [h]; exact Bool.false_ne_true)

theorem requestRecord_of_noPlace (kept p : Nat) {s : State} (h : idLeft s = true) (hp : (requestAll placeFree s).2 = false) :
    requestRecord kept p s = ((requestAll placeFree s).1, false) := by
  have hall : requestAll placeFree s = ((requestAll placeFree s).1, false) := Prod.ext rfl hp
  rw [requestRecord, if_pos h, hall]

theorem requestRecord_of_place (kept p : Nat) {s : State} (h : idLeft s = true) (hp : (requestAll placeFree s).2 = true) :
    requestRecord kept p s = requestAll (pagesAllowed kept p) (requestAll placeFree s).1 := by
  have hall : requestAll placeFree s = ((requestAll placeFree s).1, true) := Prod.ext rfl hp
  rw [requestRecord, if_pos h, hall]

/-! ### The entry -/

/-- The entry of a capture as it is created: in WRITING on one page, under the next id (R106). -/
def captureEntry (site p : Nat) (s : State) : DirEntry :=
  ⟨s.store.nextId, .capture, site, .writing, [p], 64, s.instant, s.clock.seconds, 0, 0, 0⟩

/-- The part with a capture's entry created on a page, its site counting it and STORE_LOW judged (R106, R111, R127). -/
def withCapture (site p : Nat) (s : State) : State :=
  followStoreLow (updateSite site SiteEntry.addRecord (s.setStore { s.store with
    free := s.store.free.erase p, dir := insertEntry (captureEntry site p s) s.store.dir
    nextId := s.store.nextId + 1 }))

theorem withCapture_store (site p : Nat) (s : State) :
    (withCapture site p s).store =
      { s.store with
        free := s.store.free.erase p, dir := insertEntry (captureEntry site p s) s.store.dir
        nextId := s.store.nextId + 1 } := store_followStoreLow _

/-- The store that grants the request creates the entry on the first page that no write has claimed (R103, R106). -/
theorem createCapture_of_granted {site p : Nat} {more : List Nat} {s t : State} (h : requestRecord 8 1 s = (t, true))
    (hp : unclaimed t = p :: more) : createCapture site s = (withCapture site p t, some t.store.nextId) := by
  simp only [createCapture, h, takePage, hp]
  rfl

theorem createCapture_of_refused (site : Nat) {s t : State} (h : requestRecord 8 1 s = (t, false)) :
    createCapture site s = (t, none) := by
  simp only [createCapture, h]

/-- An entry filed is found under its id, where the directory had none of it (R104). -/
theorem find?_insertEntry {e : DirEntry} {l : List DirEntry} (h : l.find? (fun d => d.id == e.id) = none) :
    (insertEntry e l).find? (fun d => d.id == e.id) = some e := by
  induction l with
  | nil => simp [insertEntry]
  | cons d rest ih =>
    obtain ⟨hd, hrest⟩ : (d.id == e.id) = false ∧ rest.find? (fun d => d.id == e.id) = none := by
      rw [List.find?_cons] at h
      split at h
      · cases h
      · next hd => exact ⟨hd, h⟩
    unfold insertEntry
    split
    · simp
    · rw [List.find?_cons, hd]
      exact ih hrest

theorem withCapture_entry (site p : Nat) {s : State} (h : s.entry s.store.nextId = none) :
    (withCapture site p s).entry s.store.nextId = some (captureEntry site p s) := by
  rw [State.entry, withCapture_store]
  exact find?_insertEntry (e := captureEntry site p s) h

/-! ### The capture -/

theorem startCapture_of_refused {i : Slot} {site : Nat} (episode forced : Option Nat) {s t : State}
    (h : requestRecord 8 1 s = (t, false)) : startCapture i site episode forced s = (t, none) := by
  simp only [startCapture, createCapture_of_refused site h]

/-- What a capture that starts on a slot leaves: `p` is the page of its entry, and `granted` the part as the request for it
leaves the store (R65, R106). -/
structure Started (i : Slot) (site p : Nat) (episode forced : Option Nat) (s granted t : State) : Prop where
  starts : startCapture i site episode forced s = (t, some s.store.nextId)
  nextId : t.store.nextId = s.store.nextId + 1
  free : t.store.free = granted.store.free.erase p
  entry : t.entry s.store.nextId = some (captureEntry site p s)
  same : t.cap i =
    (s.cap i).begin s.store.nextId site (s.slot i).kinds episode forced (storeLow t) (s.slot i).lane
  other : ∀ j, j ≠ i → t.cap j = s.cap j

/-- A capture starts where the store grants the request for its entry and the next id is free (R65, R106). -/
theorem startCapture_of_granted (i : Slot) (site : Nat) (episode forced : Option Nat) {p : Nat} {more : List Nat}
    {s granted : State} (h : requestRecord 8 1 s = (granted, true)) (hp : unclaimed granted = p :: more)
    (hnew : s.entry s.store.nextId = none) : ∃ t, Started i site p episode forced s granted t := by
  have hids := keepsIds_requestRecord 8 1 s
  have hrequest := (does_requestRecord 8 1 s).keeps
  have hcreate := (does_createCapture site s).keeps
  rw [createCapture_of_granted h hp] at hcreate
  rw [h] at hids hrequest
  have hnext : granted.store.nextId = s.store.nextId := hids.nextId
  have hfile : captureEntry site p granted = captureEntry site p s := by
    rw [captureEntry, hnext, hrequest .instant (by decide), hrequest .clock (by decide)]
    rfl
  have hcap (j : Slot) : (withCapture site p granted).cap j = s.cap j := cap_of_keeps hcreate j
  have hslot : (withCapture site p granted).slot i = s.slot i :=
    congrArg (fun q : Quad PodSlot => q.get i) (hcreate .slots (by decide))
  have hstore := withCapture_store site p granted
  have hentry := withCapture_entry site p (s := granted) (by rw [hnext]; exact hids.none _ hnew)
  rw [hnext, hfile] at hentry
  refine ⟨(withCapture site p granted).setCap i ((s.cap i).begin s.store.nextId site (s.slot i).kinds episode forced
    (storeLow (withCapture site p granted)) (s.slot i).lane), ?_, ?_, congrArg Store.free hstore, hentry,
    cap_setCap_same _ i _, fun j hj => (cap_setCap_other _ _ hj).trans (hcap j)⟩
  · simp only [startCapture, createCapture_of_granted h hp, hnext, hcap, hslot]
  · exact (congrArg Store.nextId hstore).trans (congrArg (· + 1) hnext)

end Sys2Proof.Machine
end

section
/-! The statements about waveform capture (04), settled. -/

namespace Sys2Proof.Machine

open Sys2Proof

/-- Settles O30: each row replaces one capture slot by what `readPre`, `placeHeld` or `takeInstant` leaves of it, which the
state of the staging buffer decides. -/
theorem capturesMoveEntriesIntoStaging : Obligations.CapturesMoveEntriesIntoStaging := by
  refine ⟨?pre, ?held, ?change, ?lane, ?joins, ?ring⟩
  case pre =>
    intro i l n x s hl hp hph hn hpos hlim hx hd hw hb hh hr hroom
    have hrun : (s.cap i).heldRun = 0 := by rw [CaptureSlot.heldRun, hh]; rfl
    refine ⟨_, capturePreRead_setCap hl hp, ?_, fun j hj => cap_setCap_other s _ hj, (does_setCap s i _).keeps⟩
    rw [cap_setCap_same, readPre_places hph hn hpos hlim hx hd hw hb hrun hr hroom, CaptureSlot.preKind]
    by_cases hu : (s.cap i).preUnread = 0
    · simp only [if_pos hu]; rfl
    · simp only [if_neg hu]; rfl
  case held =>
    intro i s hp hw hd h0 hr
    rw [heldGapRunPlace_setCap i hp]
    refine ⟨fun hfull => ?_, fun hb hroom => ?_⟩
    · rw [placeHeld_rests hw hr hfull, setCap_cap]
    · refine ⟨_, rfl, ?_, fun j hj => cap_setCap_other s _ hj, (does_setCap s i _).keeps⟩
      rw [cap_setCap_same, placeHeld_places hw hb hd hroom]
      exact placeRun_of_held_unblocked (Nat.ne_of_gt h0) hw hb
  case change =>
    intro c k busy hw hfull
    rw [changeSection_rests k hw hfull]
    exact ⟨rfl, rfl, decide_eq_true_iff.trans Nat.pos_iff_ne_zero.symm, rfl⟩
  case lane =>
    intro i l f rest x one m s hl hq ht hc hx hpub hlag hf hp hb htakes hlean hfirst hw c used
    obtain ⟨k, hk, rfl⟩ : ∃ k, c.Takes k ∧ one = oneOf k := by
      rcases htakes with ⟨h, rfl⟩ | ⟨h, rfl⟩
      · exact ⟨.during, .inl ⟨h, rfl⟩, rfl⟩
      · exact ⟨.post, .inr ⟨h, rfl⟩, rfl⟩
    have hcap : (countedInstant i l s).cap i = (c.writeRing x).takeAs k (busyBytes s i) x := by
      rw [countedInstant_cap_same, setAt_of_head hq hx]
      exact takeInstant_takes hk hlean hfirst _ _ _
    refine ⟨_, laneInstant_counted hl hq ht hpub hlag hc hf hp hb, fun j => countedInstant_cap_other l s,
      countedInstant_keeps i l s, ?placed, ?joined⟩
    case placed =>
      rintro y rfl hd hbe hroom
      rw [hcap, takeAs_places (c := c.writeRing (some y)) hd hw hbe hroom]
      exact putSet_placed (c.writeRing (some y)) k y
    case joined =>
      intro hs hdue hrun hfull
      rw [hcap, takeAs_joins (c := c.writeRing x) hw hs hdue hrun hfull]
      exact ⟨rfl, rfl, rfl, rfl, hw, rfl, rfl, rfl⟩
  case joins =>
    intro i site number id e s ha hen hid he t c hsettles
    have ht : t = joinEpisode i number s := episodeOpenedOn_joins ha hen hsettles
    rw [ht]
    refine ⟨(does_joinEpisode i number s).keeps, fun j hj => joinEpisode_cap_other number s hj, fun hroom => ?_,
      fun hfull => ?_⟩
    · obtain ⟨hepisodes, hcap⟩ := joinEpisode_room number hid he hroom
      obtain ⟨hlist, hremaining, hflags⟩ := joined_fields c number (busyBytes s i)
      rw [hepisodes, hcap]
      exact ⟨rfl, hlist, hremaining, hflags, fun hp => joined_pre hp _ _, fun hp => joined_post hp _ _⟩
    · rw [joinEpisode_full number hfull, cap_setCap_same]
      exact ⟨rfl, rfl, enterClosing_episodes _ _, rfl⟩
  case ring =>
    intro c x hpre hlen hw hlt d
    have hplace : d.ringWrite < c.entry.pre * 128 := place_lt _ (Nat.mul_pos hpre (by decide))
    by_cases hfill : c.ring.length < c.entry.pre * 128
    · rw [if_pos hfill] at hw
      obtain ⟨hring, horder⟩ := writeRing_fills x hfill hw
      refine ⟨by rw [if_pos hfill]; exact horder, ?_, hplace⟩
      rw [hring, List.length_append, List.length_singleton]
      omega
    · obtain ⟨hring, horder⟩ := writeRing_replaces x (Nat.le_antisymm hlen (Nat.not_lt.mp hfill)) hlt
      refine ⟨by rw [if_neg hfill]; exact horder, ?_, hplace⟩
      rw [hring, List.length_set]
      omega

/-- Settles O43: the tests of R76 in turn by `judgeCaptureForce`, then the store's answer to the request of the new entry. -/
theorem forcedCapturesStartManual : Obligations.ForcedCapturesStartManual := by
  intro e slot n s hready hl
  have awake {v : Verdict} := captureForce_answers (v := v) hready hl
  refine ⟨captureForce_parked hready hl,
    fun hp hbad => awake hp (judgeCaptureForce_badParam _ hbad),
    fun hp h4 h1 h64 ho => awake hp (judgeCaptureForce_noSite ⟨h1, h64⟩ h4 ho), ?_⟩
  rintro i site hp rfl h1 h64 ho
  have started (ha : s.isActive i = true) (hidle : (s.cap i).phase = .idle) (hpend : (s.cap i).pending = none) {u o}
      (hu : startCapture i site.id none (some n) (taken s) = (u, o)) :
      judgeCaptureForce i.val n (taken s) = forceVerdict (u, o) := by
    rw [← hu]
    exact judgeCaptureForce_starts (s := taken s) ⟨h1, h64⟩ ho ha hidle hpend
  refine ⟨fun ha => awake hp (judgeCaptureForce_noPod (s := taken s) ⟨h1, h64⟩ ho ha),
    fun ha hb => awake hp (judgeCaptureForce_busy (s := taken s) ⟨h1, h64⟩ ho ha hb),
    fun ha hidle hpend hid => awake hp (started ha hidle hpend
      (startCapture_of_refused none (some n) (requestRecord_of_noId 8 1 hid))), ?_⟩
  intro a b refused
  refine ⟨fun hplace hpages => ?atOnce, fun ha hidle hpend hid => ⟨fun hno => ?noPlace, fun hyes hno => ?noPage⟩,
    fun p more ha hidle hpend hid hplace hpage hfirst hnew => ?starts⟩
  case atOnce =>
    have hplaces : a = (taken s, true) := requestAll_of_ok (decide_eq_true hplace)
    refine ⟨hplaces, ?_⟩
    change requestAll (pagesAllowed 8 1) a.1 = _
    rw [hplaces]
    exact requestAll_of_ok (decide_eq_true hpages)
  case noPlace =>
    exact awake hp (started ha hidle hpend (startCapture_of_refused none (some n) (requestRecord_of_noPlace 8 1 hid hno)))
  case noPage =>
    have hreq : requestRecord 8 1 (taken s) = (b.1, false) :=
      (requestRecord_of_place (s := taken s) 8 1 hid hyes).trans (show b = (b.1, false) from Prod.ext rfl hno)
    exact awake hp (started ha hidle hpend (startCapture_of_refused none (some n) hreq))
  case starts =>
    have hreq : requestRecord 8 1 (taken s) = (b.1, true) :=
      (requestRecord_of_place (s := taken s) 8 1 hid hplace).trans (show b = (b.1, true) from Prod.ext rfl hpage)
    obtain ⟨t, h⟩ := startCapture_of_granted i site.id none (some n) hreq hfirst hnew
    have hkept := (does_startCapture i site.id none (some n) (taken s)).on
      (qs := [.directory, .registry, .capture, .notices, .dport])
    rw [h.starts] at hkept
    refine ⟨t, awake hp (started ha hidle hpend h.starts), h.nextId, h.free, h.entry, ?_⟩
    rw [h.same]
    exact ⟨rfl, rfl, rfl, rfl, rfl, rfl, rfl, rfl, rfl, h.other, hkept.keeps⟩

end Sys2Proof.Machine
end

section
/-! SUPPORT. Exact figures: the whole square root and the clamp (00_scope.md), and a window folded into an aggregate (R94). -/

namespace Sys2Proof.Machine

open Sys2Proof

/-! ### Whole numbers -/

theorem clamp_eq_min (limit n : Nat) : clamp limit n = min limit n := by
  unfold clamp
  split <;> omega

/-- The digits of weight `2^k` and below make a root of the digits above whole, if its square is within the number and the
next root of that weight is not. -/
theorem isqrtFrom_root {x k r : Nat} (hl : r * r ≤ x) (hu : x < (r + 2 ^ (k + 1)) * (r + 2 ^ (k + 1))) :
    isqrtFrom x k r * isqrtFrom x k r ≤ x ∧ x < (isqrtFrom x k r + 1) * (isqrtFrom x k r + 1) := by
  induction k generalizing r with
  | zero =>
    unfold isqrtFrom
    split
    · next h => exact ⟨h, hu⟩
    · next h => exact ⟨hl, Nat.not_le.mp h⟩
  | succ k ih =>
    have htwo : r + 2 ^ (k + 1) + 2 ^ (k + 1) = r + 2 ^ (k + 1 + 1) := by rw [Nat.pow_succ 2 (k + 1)]; omega
    unfold isqrtFrom
    dsimp only
    split
    · next h => exact ih h (by rwa [htwo])
    · next h => exact ih hl (Nat.not_le.mp h)

/-- isqrt is the largest root whose square does not exceed the number. -/
theorem isqrt_root (x : Nat) : isqrt x * isqrt x ≤ x ∧ x < (isqrt x + 1) * (isqrt x + 1) := by
  refine isqrtFrom_root (Nat.zero_le x) ?_
  calc x < 2 ^ (x.log2 + 1) := Nat.lt_log2_self
    _ ≤ 2 ^ (x.log2 / 2 + 1 + (x.log2 / 2 + 1)) := Nat.pow_le_pow_right (by decide) (by omega)
    _ = (0 + 2 ^ (x.log2 / 2 + 1)) * (0 + 2 ^ (x.log2 / 2 + 1)) := by rw [Nat.zero_add, Nat.pow_add]

/-! ### Figures of a window -/

theorem ratio_eq_min (a1 a : Nat) : ratio a1 a = if 16 ≤ a1 then min 65535 (a * 10000 / a1) else 0 := by
  rw [ratio, clamp_eq_min]

/-- A window whose fundamental is below 16 has no distortion (R93). -/
theorem distortion_of_noFund {a1 : Nat} (others : List Nat) (h : a1 < 16) : distortion a1 others = 0 :=
  if_neg (Nat.not_le.mpr h)

theorem distortion_of_fund {a1 : Nat} (others : List Nat) (h : 16 ≤ a1) :
    distortion a1 others = min 65535 (isqrt (others.map (fun a => a * a)).sum * 10000 / a1) := by
  simp only [distortion, if_pos h, clamp_eq_min, Nat.pow_two]

/-- The figures of a bin once a valid window is folded in (R94). -/
theorem fold_bin {a1 k x : Nat} {others : List Nat} {a : Aggregate} {f : BinFigures} (hx : (a1 :: others)[k]? = some x)
    (hf : a.bins[k]? = some f) :
    (a.fold (a1 :: others)).bins[k]? = some ⟨f.ampSum + x, max f.ampMax x, max f.ratioMax (ratio a1 x)⟩ := by
  simp [Aggregate.fold, List.getElem?_zipWith, hx, hf]

/-- A window of one amplitude for each bin leaves as many bins. -/
theorem length_fold_bins {amps : List Nat} {a : Aggregate} (h : a.bins.length = amps.length) :
    (a.fold amps).bins.length = a.bins.length := by
  rw [Aggregate.fold, List.length_zipWith, ← h, Nat.min_self]

/-- A window whose fundamental is below 16 is counted (R94). -/
theorem fold_noFund (a1 : Nat) (others : List Nat) (a : Aggregate) :
    (a.fold (a1 :: others)).noFund = if a1 < 16 then a.noFund + 1 else a.noFund := by
  simp only [← Nat.not_le, ite_not]
  rfl

end Sys2Proof.Machine
end

section
/-! SUPPORT. The schedule of windows: the window with its end open is the newest, and what its boundaries, the start of another
and the completion of windows make of it (R84 to R86, R94, R95). -/

namespace Sys2Proof.Machine

open Sys2Proof

/-! ### Groups of four -/

theorem Quad.get_fill {α : Type} (a : α) (i : Fin 4) : (Quad.fill a).get i = a := by
  match i with
  | ⟨0, _⟩ => rfl
  | ⟨1, _⟩ => rfl
  | ⟨2, _⟩ => rfl
  | ⟨3, _⟩ => rfl

theorem Quad.get_mem_toList {α : Type} (q : Quad α) (i : Fin 4) : q.get i ∈ q.toList := by
  match i with
  | ⟨0, _⟩ => simp [Quad.toList, Quad.get]
  | ⟨1, _⟩ => simp [Quad.toList, Quad.get]
  | ⟨2, _⟩ => simp [Quad.toList, Quad.get]
  | ⟨3, _⟩ => simp [Quad.toList, Quad.get]

/-! ### The newest window -/

section Newest

variable {pre : List Window} {w : Window} {h : HarmonicEngine}

/-- The window whose end is open. -/
theorem find?_openWindow (hw : w.stop = none) (hp : ∀ x ∈ pre, x.stop.isSome) :
    (pre ++ [w]).find? (fun x => x.stop.isNone) = some w := by
  rw [List.find?_append, List.find?_eq_none.mpr fun x hx => by simp [Option.isSome_iff_ne_none.mp (hp x hx)],
    List.find?_singleton, hw]
  rfl

theorem window_newest (hs : h.schedule = pre ++ [w]) (hp : ∀ x ∈ pre, x.start ≠ w.start) : h.window w.start = some w := by
  rw [HarmonicEngine.window, hs, List.find?_append, List.find?_eq_none.mpr fun x hx => by simp [hp x hx]]
  simp

theorem mapWindow_newest (f : Window → Window) (hs : h.schedule = pre ++ [w]) (hp : ∀ x ∈ pre, x.start ≠ w.start) :
    h.mapWindow w.start f = { h with schedule := pre ++ [f w] } := by
  have hpre : pre.map (fun x => if x.start = w.start then f x else x) = pre :=
    (List.map_congr_left fun x hx => if_neg (hp x hx)).trans (List.map_id' pre)
  rw [HarmonicEngine.mapWindow, hs, List.map_append, hpre, List.map_singleton, if_pos rfl]

/-- A slot has finished a window, the newest, once it is done for it (R95). -/
theorem finishVoid_newest (i : Slot) (hs : h.schedule = pre ++ [w]) (hp : ∀ x ∈ pre, x.start ≠ w.start) :
    (finishVoid w.start h i).schedule = pre ++ [{ w with done := w.done.set i true }] := by
  simp only [finishVoid, window_newest hs hp]
  split
  · next hd =>
    have hdone : w.done.set i true = w.done := (congrArg _ hd.symm).trans (Quad.set_get w.done i)
    rw [hdone]
    exact hs
  · have hs' : (h.mapInterval w.interval (Interval.mapSlot i Aggregate.voided)).schedule = pre ++ [w] := by
      rw [← hs]
      cases w.interval <;> rfl
    exact congrArg HarmonicEngine.schedule (mapWindow_newest (fun w => { w with done := w.done.set i true }) hs' hp)

end Newest

/-! ### Watch sets -/

/-- Whether the current interval watches a slot (R81, R83). -/
def HarmonicEngine.watched (h : HarmonicEngine) (i : Slot) : Bool := h.current.any (fun v => v.watches i)

theorem mapSlot_watches (i j : Slot) {f : Aggregate → Aggregate} (hf : ∀ a, (f a).chan = a.chan) (v : Interval) :
    (v.mapSlot i f).watches j = v.watches j := by
  rw [Interval.watches, Interval.mapSlot, List.any_map]
  refine congrArg (List.any v.channels) (funext fun a => ?_)
  dsimp only [Function.comp]
  split
  · rw [hf]
  · rfl

theorem finishVoid_watched (b : Nat) (h : HarmonicEngine) (i j : Slot) : (finishVoid b h i).watched j = h.watched j := by
  unfold finishVoid
  split
  · rfl
  · next w _ =>
    split
    · rfl
    · cases w.interval with
      | ending => rfl
      | current =>
        change (h.current.map (Interval.mapSlot i Aggregate.voided)).any (fun v => v.watches j) = h.watched j
        rw [Option.any_map]
        have hvoid (v : Interval) : (v.mapSlot i Aggregate.voided).watches j = v.watches j :=
          mapSlot_watches i j (f := Aggregate.voided) (fun _ => rfl) v
        exact congrArg (Option.any · h.current) (funext hvoid)

/-! ### A window's start -/

/-- A slot as a window starts: pending if it is watched and ACTIVE, and done if not; a watched slot that is not ACTIVE finishes
the window void (step 4 of R84). -/
def enterSlot (b : Nat) (active watched : Slot → Bool) (h : HarmonicEngine) (i : Slot) : HarmonicEngine :=
  if watched i then (if active i then h else finishVoid b h i) else h.markDone b i

/-- A window at its start, before its slots are judged (step 3 of R84). -/
def openedWindow (b : Boundary) : Window := ⟨b.number, none, .current, 0, 0, b.locked, b.handovers, false, Quad.fill false⟩

theorem addWindow_eq (b : Boundary) (active : Slot → Bool) (h : HarmonicEngine) :
    addWindow b active h =
      indexes.foldl (enterSlot b.number active h.watched) { h with schedule := h.schedule ++ [openedWindow b] } := by
  obtain ⟨_, _, _, _, _ | v, _, _, _, _, _, _⟩ := h <;> rfl

theorem enterSlot_newest (active watched : Slot → Bool) (i : Slot) {pre : List Window} {w : Window} {h : HarmonicEngine}
    (hs : h.schedule = pre ++ [w]) (hp : ∀ x ∈ pre, x.start ≠ w.start) :
    (enterSlot w.start active watched h i).schedule =
      pre ++ [{ w with done := if active i && watched i then w.done else w.done.set i true }] := by
  unfold enterSlot
  cases watched i with
  | false =>
    rw [Bool.and_false]
    exact congrArg HarmonicEngine.schedule (mapWindow_newest (fun w => { w with done := w.done.set i true }) hs hp)
  | true =>
    cases active i with
    | true => exact hs
    | false => exact finishVoid_newest i hs hp

theorem enterSlot_watched (b : Nat) (active watched : Slot → Bool) (h : HarmonicEngine) (i j : Slot) :
    (enterSlot b active watched h i).watched j = h.watched j := by
  unfold enterSlot
  split
  · split
    · rfl
    · exact finishVoid_watched b h i j
  · rfl

theorem enterSlots_watched (b : Nat) (active watched : Slot → Bool) (l : List Slot) (h : HarmonicEngine) (j : Slot) :
    (l.foldl (enterSlot b active watched) h).watched j = h.watched j := by
  induction l generalizing h with
  | nil => rfl
  | cons i rest ih => rw [List.foldl_cons, ih, enterSlot_watched]

/-- Of the slots judged, those watched and ACTIVE stay pending and the others are done. -/
theorem enterSlots_newest (active watched : Slot → Bool) (l : List Slot) {pre : List Window} {w : Window}
    {h : HarmonicEngine} (hs : h.schedule = pre ++ [w]) (hp : ∀ x ∈ pre, x.start ≠ w.start) :
    ∃ d : Quad Bool, (l.foldl (enterSlot w.start active watched) h).schedule = pre ++ [{ w with done := d }] ∧
      ∀ i, d.get i = (w.done.get i || (l.contains i && !(active i && watched i))) := by
  induction l generalizing h w with
  | nil => exact ⟨w.done, hs, fun i => by simp⟩
  | cons j rest ih =>
    obtain ⟨d, hd, hget⟩ := ih (enterSlot_newest active watched j hs hp) hp
    refine ⟨d, hd, fun i => ?_⟩
    rw [hget, List.contains_cons]
    by_cases hj : i = j
    · subst hj
      cases active i && watched i <;> simp [Quad.get_set_same]
    · rw [beq_false_of_ne hj, Bool.false_or]
      cases active j && watched j <;> simp [Quad.get_set_other _ _ hj]

/-- The window that a start adds is pending for the slots that are ACTIVE and watched (steps 3 and 4 of R84). -/
theorem addWindow_newest (b : Boundary) (active : Slot → Bool) {h : HarmonicEngine}
    (hp : ∀ x ∈ h.schedule, x.start ≠ b.number) :
    ∃ d : Quad Bool, (addWindow b active h).schedule = h.schedule ++ [{ openedWindow b with done := d }] ∧
      ∀ i, d.get i = !(active i && (addWindow b active h).watched i) := by
  have hs : ({ h with schedule := h.schedule ++ [openedWindow b] } : HarmonicEngine).schedule =
      h.schedule ++ [openedWindow b] := rfl
  obtain ⟨d, hd, hget⟩ := enterSlots_newest active h.watched indexes hs hp
  rw [addWindow_eq]
  refine ⟨d, hd, fun i => ?_⟩
  have hin : indexes.contains i = true := by revert i; decide
  have hopen : (openedWindow b).done.get i = false := Quad.get_fill false i
  rw [hget, hin, hopen, Bool.false_or, Bool.true_and, enterSlots_watched]
  rfl

theorem beginInterval_schedule (site : Nat) (b : Boundary) (h : HarmonicEngine) :
    (beginInterval site b h).schedule = h.schedule := by
  unfold beginInterval
  split <;> rfl

/-- A window starts at a RISING boundary with a site OPEN, no window's end open and no tables staged (R84). -/
theorem windowStart_of_rising {b : Boundary} {site : SiteEntry} {s : State} (ho : s.openSite = some site)
    (hb : b.direction = .rising) (hstaged : s.harmonic.staged = none) (hw : ∀ w ∈ s.harmonic.schedule, w.stop.isSome) :
    windowStart b s = s.setHarmonic (addWindow b s.isActive (beginInterval site.id b s.harmonic)) := by
  have hall : s.harmonic.schedule.all (fun w => w.stop.isSome) = true := List.all_eq_true.mpr hw
  simp only [windowStart, ho, hb, hall, hstaged, and_self, if_true, Option.isSome_none, Bool.false_eq_true, if_false]

/-! ### Completion -/

/-- What the filing of a record leaves of the engine: the windows and the current interval (R94, R97). -/
def HarmonicEngine.windows (h : HarmonicEngine) : List Window × Option Interval := (h.schedule, h.current)

theorem fileInterval_windows (v : Interval) (s : State) : (fileInterval v s).harmonic.windows = s.harmonic.windows := by
  change (outboxHarmonic _ s.harmonic).windows = s.harmonic.windows
  unfold outboxHarmonic
  split <;> rfl

theorem fileEnding_windows (s : State) : (fileEnding s).harmonic.windows = s.harmonic.windows := by
  unfold fileEnding
  split
  · rfl
  · exact fileInterval_windows _ _

/-- Final windows leave the schedule, and the current interval stays (R94). -/
theorem settle_windows (s : State) :
    (settle s).harmonic.windows = (s.harmonic.schedule.filter (fun w => !w.final), s.harmonic.current) := by
  unfold settle
  dsimp only
  split
  · rfl
  · exact fileEnding_windows _

/-- A window is not final while a slot is pending for it (R94). -/
theorem not_final_of_pending {w : Window} {i : Slot} (h : w.done.get i = false) : w.final = false := by
  have hall : w.done.toList.all id = false := List.all_eq_false.mpr ⟨_, Quad.get_mem_toList w.done i, by simp [h]⟩
  rw [Window.final, hall, Bool.and_false]

/-! ### A boundary in a window -/

section TakeBoundary

variable {pre : List Window} {w : Window} {s : State}

/-- A boundary before the sixteenth adds its half-cycle to the window whose end is open (R85). -/
theorem windowBoundary_before (b : Boundary) (length : Nat) (hs : s.harmonic.schedule = pre ++ [w]) (hw : w.stop = none)
    (hp : ∀ x ∈ pre, x.stop.isSome ∧ x.start ≠ w.start) (hc : w.closes + 1 ≠ 16) :
    windowBoundary b length s =
      s.setHarmonic { s.harmonic with schedule := pre ++ [w.takeBoundary b length] } := by
  have hfind := find?_openWindow hw fun x hx => (hp x hx).1
  simp only [windowBoundary, hs, hfind, if_neg hc, mapWindow_newest _ hs fun x hx => (hp x hx).2]

/-- The sixteenth boundary ends the window, which its interval counts; an interval that wants more windows goes on (R85, R86). -/
theorem windowBoundary_sixteenth (b : Boundary) (length : Nat) {v : Interval} (hs : s.harmonic.schedule = pre ++ [w])
    (hw : w.stop = none) (hp : ∀ x ∈ pre, x.stop.isSome ∧ x.start ≠ w.start) (hc : w.closes + 1 = 16)
    (hi : w.interval = .current) (hv : s.harmonic.current = some v) (hm : v.windows + 1 < v.m) :
    windowBoundary b length s =
      settle (s.setHarmonic { s.harmonic with
        schedule := pre ++ [w.takeBoundary b length], current := some (v.countWindow b.instant) }) := by
  have hfind := find?_openWindow hw fun x hx => (hp x hx).1
  have hmore : ¬v.m ≤ (v.countWindow b.instant).windows := Nat.not_le.mpr hm
  simp only [windowBoundary, hs, hfind, if_pos hc, mapWindow_newest _ hs fun x hx => (hp x hx).2, hi,
    HarmonicEngine.mapInterval, hv, Option.map_some]
  exact if_neg hmore

end TakeBoundary

end Sys2Proof.Machine
end

section
/-! The statements about harmonic analysis (05), settled. -/

namespace Sys2Proof.Machine

open Sys2Proof

/-- Settles O31: the digit-by-digit root is the whole root, and a valid window is folded bin by bin. -/
theorem windowFiguresFollowTheFormulas : Obligations.WindowFiguresFollowTheFormulas := by
  refine ⟨fun n i q => ?amplitude, fun a1 others h => ?distortion, ratio_eq_min,
    fun a1 others => distortion_of_noFund others, fun a1 others a hlen => ?fold⟩
  case amplitude =>
    obtain ⟨hl, hu⟩ := isqrt_root (i.natAbs ^ 2 + q.natAbs ^ 2)
    exact ⟨_, hl, hu, clamp_eq_min _ _⟩
  case distortion =>
    obtain ⟨hl, hu⟩ := isqrt_root (others.map (fun a => a * a)).sum
    exact ⟨_, hl, hu, distortion_of_fund others h⟩
  case fold =>
    exact ⟨rfl, rfl, fold_noFund a1 others a, rfl, rfl, length_fold_bins hlen, fun k x f => fold_bin⟩

/-- Settles O32: the window added is the newest, and a boundary changes the newest alone; the sixteenth leaves it scheduled
while a slot is pending for it. -/
theorem windowsSpanSixteenHalfCycles : Obligations.WindowsSpanSixteenHalfCycles := by
  refine ⟨fun b site s ho hb hstaged hw => ?start, fun b length pre w s hs hw hp => ⟨fun hc => ?before, ?sixteenth⟩⟩
  case start =>
    have hschedule := beginInterval_schedule site.id b s.harmonic
    have hp : ∀ x ∈ (beginInterval site.id b s.harmonic).schedule, x.start ≠ b.number :=
      fun x hx => (hw x (hschedule ▸ hx)).2
    obtain ⟨d, hd, hget⟩ := addWindow_newest b s.isActive hp
    rw [hschedule] at hd
    rw [windowStart_of_rising ho hb hstaged fun w hm => (hw w hm).1]
    exact ⟨_, hd, rfl, rfl, rfl, rfl, rfl, rfl, rfl, hget⟩
  case before =>
    rw [windowBoundary_before b length hs hw hp (by omega)]
    refine ⟨?_, (does_engine s _).keeps⟩
    rw [State.setHarmonic_harmonic, Window.takeBoundary, if_neg (by omega), hw]
  case sixteenth =>
    intro i v hc hd hi hv hm
    have hkeeps := (does_windowBoundary b length s).keeps
    rw [windowBoundary_sixteenth b length hs hw hp (by omega) hi hv hm] at hkeeps ⊢
    have hnotFinal : (w.takeBoundary b length).final = false := not_final_of_pending (i := i) hd
    obtain ⟨hschedule, hcurrent⟩ := Prod.mk.inj (settle_windows (s.setHarmonic { s.harmonic with
      schedule := pre ++ [w.takeBoundary b length], current := some (v.countWindow b.instant) }))
    refine ⟨?_, hcurrent, hkeeps⟩
    have hnewest : (pre ++ [w.takeBoundary b length]).filter (fun x => !x.final) =
        pre.filter (fun x => !x.final) ++ [w.takeBoundary b length] := by
      simp [List.filter_append, hnotFinal]
    have hwindow := window_newest (hschedule.trans hnewest) fun x hx => (hp x (List.mem_filter.mp hx).1).2
    rw [show w.start = (w.takeBoundary b length).start from rfl, hwindow, Window.takeBoundary, hc, if_pos rfl]

end Sys2Proof.Machine
end
